-- ==== Sys2Proof/Word.lean ====
section
/-!
DEFINITION. The bit vectors of the engine: what the spec numbers as bits (spec 00_scope.md R13). Bit 0 is the least significant.
Everything is unsigned; nothing is ever sign-extended (spec 40_codec.md R138).
-/

namespace Sys2Proof

/-- One byte of a buffer (spec 20_memory.md R60). -/
abbrev Byte := BitVec 8

/-- A 32-bit register word: Hub Configuration Register, Node Info Register, accumulator (spec 30_encoding.md R93, R94). -/
abbrev Word32 := BitVec 32

/-- A byte buffer: a finite sequence of bytes, `byte[0]` first (spec 20_memory.md R60). -/
abbrev Buffer := List Byte

end Sys2Proof
end

