-- ==== Sys2Proof/Config.lean ====
section
/-!
DEFINITION. What is fixed for the machine: the protocol constants of spec 00_scope.md R11 as literals, the open parameters
of R12 as constants WITHOUT a body, and the free values (what the scan-chain engine answers where no answer has been put on
its channel). Nothing in Lean can evaluate an `opaque` constant, so a statement that holds, holds for every value of it.
-/

namespace Sys2Proof

/-- Which numbers stand for a value of the open type `TransportErrorToken` (spec 00_scope.md R12, 92_eei_decisions.md D25). Open:
it has no body, so nothing in Lean tells how many tokens there are or which number is one. notes/assumptions/8.md. -/
opaque Config.isToken : Nat → Bool

/-- `TransportErrorToken`, carried and never interpreted (spec 00_scope.md R12, 92_eei_decisions.md D25): an open type. A state is
plain data, so tokens can be compared and written down, and a type of that kind with at least one value is, up to the names of
its values, some set of numbers that holds 0: `Config.isToken` leaves open which. DESIGN CHOICE, notes/assumptions/8.md. -/
abbrev Token := { n : Nat // n = 0 ∨ Config.isToken n = true }

/-- What one `execute_queue` call answers (spec 41_scan_interface.md R164). -/
inductive Answer where
  | success
  | transportError (tok : Token)
  deriving DecidableEq, Repr, Inhabited

namespace Config

/-- Physical JTAG instruction that selects the virtual data register (spec 00_scope.md R11). -/
def user0 : Nat := 0x0C
/-- Physical JTAG instruction that selects the virtual instruction register (spec 00_scope.md R11). -/
def user1 : Nat := 0x0E
/-- `node_id` of a Virtual JTAG node (spec 00_scope.md R11). -/
def vjtagNodeId : BitVec 8 := 0x08
/-- Width of one nibble scan (spec 00_scope.md R11). -/
def nibbleBits : Nat := 4
/-- Nibble scans per 32-bit register (spec 00_scope.md R11). -/
def nibblesPerWord : Nat := 8
/-- Width of the zero shift of step 3 (spec 00_scope.md R11). -/
def zeroFillBits : Nat := 64
/-- Largest field width of the codec (spec 00_scope.md R11). -/
def maxFieldBits : Nat := 64
/-- Smallest legal instruction-register width of a TAP handle (spec 00_scope.md R12, 92_eei_decisions.md D12). -/
def minIrlen : Nat := 4

/-- `DTMCS_TAG`, the step 9 target register: the source gives no value (spec 00_scope.md R12, 92_eei_decisions.md D13). Open. -/
opaque dtmcsTag : BitVec 32

/-- `ALTERA_MFG_ID`: the source gives no value and no rule reads it (spec 00_scope.md R12, 92_eei_decisions.md D31). Open. -/
opaque alteraMfgId : BitVec 11

/-- Free value: the answer of an `execute_queue` for which none stands on the channel (spec 41_scan_interface.md R168,
93_implementation_defined.md U11). notes/assumptions/4.md. -/
opaque freeAnswer : Nat → Answer

/-- Free value: the bits a capturing scan returns when none stand on the channel (spec 41_scan_interface.md R168, U11), and
what a capture buffer holds after a failure (U12). notes/assumptions/4.md, notes/assumptions/17.md. -/
opaque freeCapture : Nat → Nat

/-- Free value: does an engine reset in mid-command leave the request in the scan queue ("may be left", spec
70_reset_and_hazards.md R293)? notes/assumptions/7.md. -/
opaque freeKeepsQueue : Nat → Bool

end Config

end Sys2Proof
end

