-- ==== Sys2Proof/Syntax.lean ====
section
/-!
DEFINITION. The operations of the block as syntax: one constructor of `Instr` for each row of spec/opcode_table.json
(spec 30_encoding.md R90, R114, R93 to R97, R113; 00_scope.md R15 says what an "instruction" of this hardware is).
-/

namespace Sys2Proof

/-- The TAP handle a command carries: the pair (`TAP_ID`, `IRLEN`) (spec 10_state.md R37). `TAP_ID` is opaque to the engine:
a number that nothing interprets (spec 92_eei_decisions.md D14; notes/assumptions/8.md). -/
structure Tap where
  tapId : Nat
  irlen : Nat
  deriving DecidableEq, Repr

/-- The byte buffers by name: the three scan buffers of the engine (spec 10_state.md R38) and the one buffer a caller of
the codec owns (spec 40_codec.md R130: "`buffer`, a byte buffer of `L` bytes"; notes/assumptions/12.md). -/
inductive BufId where
  | irbuf
  | drbuf
  | capbuf
  | caller
  deriving DecidableEq, Repr

/-- What `ERR_TOKEN` holds: the scan-chain engine's token unchanged, or the engine's own `DECODE_RANGE` (spec 10_state.md R43). -/
inductive ErrToken where
  | chain (tok : Token)
  | decodeRange
  deriving DecidableEq, Repr

/-- One operation of the block. The four groups of words that travel (physical JTAG instructions, register words, shifted
words, responses) have the fields of their bit-level formats; what the spec says is "carried beside the word" is an operand. -/
inductive Instr where
  /-- `discover(tap)` (spec 42_discovery.md R190). -/
  | discover (tap : Tap)
  /-- `route_to_node(tap, virtual_ir_value)` (spec 43_routing.md R230). -/
  | route (virVal : BitVec 32) (tap : Tap)
  /-- Reserved command code `0b00` (spec 30_encoding.md R114). -/
  | cmdReserved00
  /-- Reserved command code `0b11` (spec 30_encoding.md R114). -/
  | cmdReserved11
  /-- The physical JTAG instruction `USER0` in an `irlen`-bit register (spec 30_encoding.md R92). -/
  | user0 (irlen : Nat)
  /-- The physical JTAG instruction `USER1` in an `irlen`-bit register (spec 30_encoding.md R92). -/
  | user1 (irlen : Nat)
  /-- `reset_tap()` (spec 41_scan_interface.md R161). -/
  | resetTap
  /-- `shift_instruction(tap, bit_width, value)`, the value a buffer handed over by reference (spec 41_scan_interface.md R162). -/
  | shiftIr (tap : Tap) (bitWidth : Nat) (value : BufId)
  /-- `shift_data(bit_width, out_bits_or_none, in_capture_buffer_or_none)` (spec 41_scan_interface.md R163). -/
  | shiftDr (bitWidth : Nat) (out : Option BufId) (cap : Option BufId)
  /-- `execute_queue()` (spec 41_scan_interface.md R164). -/
  | execute
  /-- `pack(buffer, bit_offset, bit_width, value)` (spec 40_codec.md R130). -/
  | pack (buf : BufId) (off w : Nat) (value : BitVec 64)
  /-- `unpack(buffer, bit_offset, bit_width)` (spec 40_codec.md R131). -/
  | unpack (buf : BufId) (off w : Nat)
  /-- `address_field_width(node_count)` (spec 40_codec.md R132). -/
  | afw (nodeCount : Nat)
  /-- `NIBACC(acc, x)` (spec 40_codec.md R133). -/
  | nibacc (acc : BitVec 32) (x : Nat)
  /-- `ASM32(x0 .. x7)`, in capture order (spec 40_codec.md R134). -/
  | asm32 (x0 x1 x2 x3 x4 x5 x6 x7 : Nat)
  /-- `DEC_HUB(w)` (spec 40_codec.md R135). -/
  | decHub (w : BitVec 32)
  /-- `DEC_NODE(w)` (spec 40_codec.md R136). -/
  | decNode (w : BitVec 32)
  /-- `MKVIR(addr, n, m, vir_val)` (spec 40_codec.md R137). -/
  | mkvir (addr : BitVec 8) (n m : Nat) (virVal : BitVec 32)
  /-- `SEL_VIR(tap)` (spec 41_scan_interface.md R169). -/
  | selVir (tap : Tap)
  /-- `SEL_VDR(tap)` (spec 41_scan_interface.md R170). -/
  | selVdr (tap : Tap)
  /-- `NIBSCAN()` (spec 41_scan_interface.md R171). -/
  | nibscan
  /-- `READ32()` (spec 41_scan_interface.md R172). -/
  | read32
  /-- `HUB_ADDR0()` (spec 42_discovery.md R193). -/
  | hubAddr0
  /-- A Hub Configuration Register word (spec 30_encoding.md R93). -/
  | hubCfg (version : BitVec 5) (nodeCount : BitVec 8) (mfg : BitVec 11) (m : BitVec 8)
  /-- A Node Info Register word whose `node_id` is not the Virtual JTAG tag (spec 30_encoding.md R94). -/
  | nodeInfo (version : BitVec 5) (nodeId : BitVec 8) (mfg : BitVec 11) (inst : BitVec 8)
  /-- A Node Info Register word with `node_id = 0x08` (spec 42_discovery.md R198). -/
  | nodeInfoVjtag (version : BitVec 5) (mfg : BitVec 11) (inst : BitVec 8)
  /-- A routed VIR word of `n + m` bits (spec 30_encoding.md R95). -/
  | routedVir (n m addr value : Nat)
  /-- The zero fill of step 3 (spec 30_encoding.md R96). -/
  | zeroFill
  /-- One captured nibble (spec 30_encoding.md R97). -/
  | nibble (x : BitVec 4)
  /-- Response `success` (spec 30_encoding.md R113). -/
  | rspSuccess
  /-- Response `no_vjtag_found` (spec 60_exceptions.md R252). -/
  | rspNoVjtagFound
  /-- Response `transport_error`, its token beside it (spec 60_exceptions.md R251, R254). -/
  | rspTransportError (token : ErrToken)
  /-- Response `not_discovered` (spec 60_exceptions.md R253). -/
  | rspNotDiscovered
  deriving DecidableEq, Repr

end Sys2Proof
end

