-- ==== Sys2Proof/WellFormed.lean ====
section
/-!
DEFINITION. Which terms of `Instr` the spec gives a meaning by form alone. What depends on the state (a buffer's capacity,
the stage) is checked by the meanings. Every check has a name, so that a refusal says which one failed.
-/

namespace Sys2Proof

/-- Why a term is ill formed. -/
inductive WfProblem where
  /-- `IRLEN < 4` (spec 41_scan_interface.md R169, 93_implementation_defined.md U18). -/
  | irlenTooNarrow
  /-- A codec width above 64 (spec 20_memory.md R69). -/
  | codecWidth
  /-- An IR shift of a width other than the handle's `IRLEN` (spec 41_scan_interface.md R162). -/
  | irWidthNotIrlen
  /-- A DR shift of no bits or of more than 64 (spec 41_scan_interface.md R163). -/
  | drWidth
  /-- A node address of 0, the hub's (spec 40_codec.md R137: "`VJTAG_ADDR`, 1 to 255"). -/
  | hubAddress
  /-- A routed width outside 1 to 64 (spec 30_encoding.md R104). -/
  | routedWidth
  /-- An address that does not fit `n` bits (spec 20_memory.md R73). -/
  | routedAddress
  /-- A virtual-IR value that does not fit `m` bits (spec 30_encoding.md R95). -/
  | routedValue
  /-- A word tagged `0x08` written as an untagged one (spec 42_discovery.md R198). -/
  | vjtagTag
  deriving DecidableEq, Repr

/-- The problem `p` unless the check `ok` holds. -/
def require (ok : Bool) (p : WfProblem) : Option WfProblem := if ok then none else some p

/-- A TAP handle that the engine takes (spec 70_reset_and_hazards.md R294). -/
def tapProblem (t : Tap) : Option WfProblem := require (Config.minIrlen ≤ t.irlen) .irlenTooNarrow

/-- The first thing wrong with a term, `none` for a well-formed one. -/
def wfProblem : Instr → Option WfProblem
  | .discover tap => tapProblem tap
  | .route _ tap => tapProblem tap
  | .cmdReserved00 => none
  | .cmdReserved11 => none
  | .user0 irlen => require (Config.minIrlen ≤ irlen) .irlenTooNarrow
  | .user1 irlen => require (Config.minIrlen ≤ irlen) .irlenTooNarrow
  | .resetTap => none
  | .shiftIr tap w _ => (tapProblem tap).or (require (w = tap.irlen) .irWidthNotIrlen)
  | .shiftDr w _ _ => require (1 ≤ w ∧ w ≤ 64) .drWidth
  | .execute => none
  | .pack _ _ w _ => require (w ≤ Config.maxFieldBits) .codecWidth
  | .unpack _ _ w => require (w ≤ Config.maxFieldBits) .codecWidth
  | .afw _ => none
  | .nibacc _ _ => none
  | .asm32 _ _ _ _ _ _ _ _ => none
  | .decHub _ => none
  | .decNode _ => none
  | .mkvir addr n m _ => (require (addr ≠ 0) .hubAddress).or (require (n + m ≤ 64) .routedWidth)
  | .selVir tap => tapProblem tap
  | .selVdr tap => tapProblem tap
  | .nibscan => none
  | .read32 => none
  | .hubAddr0 => none
  | .hubCfg _ _ _ _ => none
  | .nodeInfo _ nodeId _ _ => require (nodeId ≠ Config.vjtagNodeId) .vjtagTag
  | .nodeInfoVjtag _ _ _ => none
  | .routedVir n m addr value =>
    (require (1 ≤ n + m ∧ n + m ≤ 64) .routedWidth).or
      ((require (addr < 2 ^ n) .routedAddress).or (require (value < 2 ^ m) .routedValue))
  | .zeroFill => none
  | .nibble _ => none
  | .rspSuccess => none
  | .rspNoVjtagFound => none
  | .rspTransportError _ => none
  | .rspNotDiscovered => none

/-- The term is well formed. -/
abbrev WellFormed (i : Instr) : Prop := wfProblem i = none

end Sys2Proof
end

