-- ==== Sys2Proof/Decode.lean ====
section
/-!
DEFINITION. Decoding, total on any word of any channel and rejecting by name, and the encoder written from the same formats.

A word of this hardware is read on a CHANNEL (spec 00_scope.md R9): the same bits are a request kind on one and a result code
on another, so the channel is an operand of the decoder and carries what the spec says stands beside the word (the TAP handle
of a command, spec 30_encoding.md R114; the arguments of a request record, 41_scan_interface.md R165; the token of a
transport error, 10_state.md R43; the widths `n` and `m` that earlier words fixed, 30_encoding.md R104). Codec functions and
macro-operations have no bit pattern "because they are never decoded" (spec 30_encoding.md, opening). notes/assumptions/14.md.
-/

namespace Sys2Proof

/-- A word as it travels: its width in bits and the bits as a number, bit 0 least significant (spec 00_scope.md R13). -/
structure RawWord where
  width : Nat
  bits : Nat
  deriving DecidableEq, Repr

/-- The arguments that stand beside the kind of a request record (spec 41_scan_interface.md R162, R163, R165). -/
structure ReqArgs where
  tap : Tap
  bitWidth : Nat
  value : BufId
  out : Option BufId
  cap : Option BufId
  deriving DecidableEq, Repr

/-- The channels on which words travel, each with what stands beside its words. -/
inductive Channel where
  /-- Host to engine, 34 bits (spec 30_encoding.md R114). -/
  | command (tap : Tap)
  /-- Engine to scan-chain engine, 2 bits of kind (spec 41_scan_interface.md R165). -/
  | request (args : ReqArgs)
  /-- Into the TAP's instruction register, `IRLEN` bits (spec 30_encoding.md R92). -/
  | physicalIr
  /-- The assembled word of step 5 (spec 30_encoding.md R93). -/
  | hubRegister
  /-- An assembled word of step 7 (spec 30_encoding.md R94). -/
  | nodeRegister
  /-- Into the hub's virtual IR once `n` and `m` are known (spec 30_encoding.md R95). -/
  | virtualIr (n m : Nat)
  /-- Into the hub's virtual IR before `n` and `m` are known (spec 30_encoding.md R96). -/
  | hubAddressing
  /-- Out of the virtual data register (spec 30_encoding.md R97). -/
  | capture
  /-- Engine to host, 2 bits (spec 30_encoding.md R112). -/
  | response (token : Option ErrToken)
  deriving DecidableEq, Repr

/-- Why a word is no instruction of its channel. -/
inductive DecodeError where
  /-- Bits are set at or above the width. -/
  | bitsAboveWidth
  /-- The channel's words have another width. -/
  | wrongWidth
  /-- A physical JTAG opcode other than the two the engine emits (spec 30_encoding.md R100 (d)). -/
  | opcodeNeverEmitted
  /-- Before `n` and `m` are known only 64 zero bits are shifted (spec 30_encoding.md R96). -/
  | notZeroFill
  /-- A transport error without its token (spec 10_state.md R43). -/
  | tokenMissing
  deriving DecidableEq, Repr

/-- A command word (spec 30_encoding.md R114): `op` in bits `[1:0]`, `vir_val` in bits `[33:2]`. -/
def decodeCommand (w : BitVec 34) (tap : Tap) : Instr :=
  if w.extractLsb' 0 2 = 0b01#2 then .discover tap
  else if w.extractLsb' 0 2 = 0b10#2 then .route (w.extractLsb' 2 32) tap
  else if w.extractLsb' 0 2 = 0b00#2 then .cmdReserved00
  else .cmdReserved11

/-- A request record (spec 41_scan_interface.md R165): kinds 0 `reset_tap`, 1 `shift_instruction`, 2 `shift_data`,
3 `execute_queue`. -/
def decodeRequest (kind : BitVec 2) (a : ReqArgs) : Instr :=
  if kind = 0#2 then .resetTap
  else if kind = 1#2 then .shiftIr a.tap a.bitWidth a.value
  else if kind = 2#2 then .shiftDr a.bitWidth a.out a.cap
  else .execute

/-- A Hub Configuration Register (spec 30_encoding.md R93). -/
def decodeHub (w : BitVec 32) : Instr :=
  .hubCfg (w.extractLsb' 27 5) (w.extractLsb' 19 8) (w.extractLsb' 8 11) (w.extractLsb' 0 8)

/-- A Node Info Register (spec 30_encoding.md R94), with the tag match of spec 42_discovery.md R198. -/
def decodeNode (w : BitVec 32) : Instr :=
  if w.extractLsb' 19 8 = Config.vjtagNodeId then
    .nodeInfoVjtag (w.extractLsb' 27 5) (w.extractLsb' 8 11) (w.extractLsb' 0 8)
  else .nodeInfo (w.extractLsb' 27 5) (w.extractLsb' 19 8) (w.extractLsb' 8 11) (w.extractLsb' 0 8)

/-- A result code (spec 30_encoding.md R113). -/
def decodeResponse (code : BitVec 2) (token : Option ErrToken) : Except DecodeError Instr :=
  if code = 0#2 then .ok .rspSuccess
  else if code = 1#2 then .ok .rspNoVjtagFound
  else if code = 2#2 then
    match token with
    | some t => .ok (.rspTransportError t)
    | none => .error .tokenMissing
  else .ok .rspNotDiscovered

/-- `x` if the word has the channel's width. -/
def ofWidth (w : RawWord) (width : Nat) (x : Except DecodeError Instr) : Except DecodeError Instr :=
  if w.width = width then x else .error .wrongWidth

/-- The instruction a word is on its channel. -/
def decode (ch : Channel) (w : RawWord) : Except DecodeError Instr :=
  if 2 ^ w.width ≤ w.bits then .error .bitsAboveWidth
  else
    match ch with
    | .command tap => ofWidth w 34 (.ok (decodeCommand (BitVec.ofNat 34 w.bits) tap))
    | .request args => ofWidth w 2 (.ok (decodeRequest (BitVec.ofNat 2 w.bits) args))
    | .physicalIr =>
      if w.bits = Config.user0 then .ok (.user0 w.width)
      else if w.bits = Config.user1 then .ok (.user1 w.width)
      else .error .opcodeNeverEmitted
    | .hubRegister => ofWidth w 32 (.ok (decodeHub (BitVec.ofNat 32 w.bits)))
    | .nodeRegister => ofWidth w 32 (.ok (decodeNode (BitVec.ofNat 32 w.bits)))
    | .virtualIr n m =>
      if 1 ≤ n + m ∧ n + m ≤ 64 then ofWidth w (n + m) (.ok (.routedVir n m (w.bits >>> m) (w.bits % 2 ^ m)))
      else .error .wrongWidth
    | .hubAddressing => ofWidth w 64 (if w.bits = 0 then .ok .zeroFill else .error .notZeroFill)
    | .capture => ofWidth w 4 (.ok (.nibble (BitVec.ofNat 4 w.bits)))
    | .response token => ofWidth w 2 (decodeResponse (BitVec.ofNat 2 w.bits) token)

/-- Arguments for a request that reads none. -/
def noArgs : ReqArgs := ⟨⟨0, 0⟩, 0, .irbuf, none, none⟩

/-- The 32-bit word of a register format: version, count or id, manufacturer, `m` or instance (spec 30_encoding.md R93, R94). -/
def registerWord (version : BitVec 5) (count : BitVec 8) (mfg : BitVec 11) (m : BitVec 8) : BitVec 32 :=
  version ++ count ++ mfg ++ m

/-- The channel and the word of an instruction; `none` for the operations that have no bit pattern
(spec 30_encoding.md, opening: codec functions and macro-operations "are never decoded"). Ignored bits are written as 0. -/
def encode : Instr → Option (Channel × RawWord)
  | .discover tap => some (.command tap, ⟨34, 0b01⟩)
  | .route virVal tap => some (.command tap, ⟨34, virVal.toNat * 4 + 0b10⟩)
  | .cmdReserved00 => some (.command ⟨0, 0⟩, ⟨34, 0b00⟩)
  | .cmdReserved11 => some (.command ⟨0, 0⟩, ⟨34, 0b11⟩)
  | .user0 irlen => some (.physicalIr, ⟨irlen, Config.user0⟩)
  | .user1 irlen => some (.physicalIr, ⟨irlen, Config.user1⟩)
  | .resetTap => some (.request noArgs, ⟨2, 0⟩)
  | .shiftIr tap w value => some (.request { noArgs with tap := tap, bitWidth := w, value := value }, ⟨2, 1⟩)
  | .shiftDr w out cap => some (.request { noArgs with bitWidth := w, out := out, cap := cap }, ⟨2, 2⟩)
  | .execute => some (.request noArgs, ⟨2, 3⟩)
  | .pack _ _ _ _ => none
  | .unpack _ _ _ => none
  | .afw _ => none
  | .nibacc _ _ => none
  | .asm32 _ _ _ _ _ _ _ _ => none
  | .decHub _ => none
  | .decNode _ => none
  | .mkvir _ _ _ _ => none
  | .selVir _ => none
  | .selVdr _ => none
  | .nibscan => none
  | .read32 => none
  | .hubAddr0 => none
  | .hubCfg version count mfg m => some (.hubRegister, ⟨32, (registerWord version count mfg m).toNat⟩)
  | .nodeInfo version nodeId mfg inst => some (.nodeRegister, ⟨32, (registerWord version nodeId mfg inst).toNat⟩)
  | .nodeInfoVjtag version mfg inst =>
    some (.nodeRegister, ⟨32, (registerWord version Config.vjtagNodeId mfg inst).toNat⟩)
  | .routedVir n m addr value => some (.virtualIr n m, ⟨n + m, addr * 2 ^ m + value⟩)
  | .zeroFill => some (.hubAddressing, ⟨64, 0⟩)
  | .nibble x => some (.capture, ⟨4, x.toNat⟩)
  | .rspSuccess => some (.response none, ⟨2, 0⟩)
  | .rspNoVjtagFound => some (.response none, ⟨2, 1⟩)
  | .rspTransportError token => some (.response (some token), ⟨2, 2⟩)
  | .rspNotDiscovered => some (.response none, ⟨2, 3⟩)

/-- The TAP handle that stands beside a table word, for which the table has no bits: the spec's own example width 10
(spec 95_test_vectors.md header, G6). Used by `decodeTableWord` and `withFetchWord` only. notes/assumptions/14.md. -/
def exampleTap : Tap := ⟨0, 10⟩

/-- The arguments that stand beside a table word of a request record: an IR shift of `IRBUF` for kind 1, the 64-bit zero
fill of step 3 for kind 2. notes/assumptions/14.md. -/
def exampleArgs (kind : Nat) : ReqArgs := ⟨exampleTap, if kind = 1 then exampleTap.irlen else 64, .irbuf, some .drbuf, none⟩

/-- The decoder on a word of the opcode table, given by its size in whole bytes and its bits. The table's sizes do not tell
every channel apart: words of one byte below 4 are read as request kinds and the others below 16 as nibbles, words of two
bytes as `IRLEN = 10` instructions, words of four bytes as node words if tagged `0x08` and as hub words otherwise.
notes/assumptions/14.md. -/
def decodeTableWord (nbits w : Nat) : Option Instr :=
  if nbits = 40 then (decode (.command exampleTap) ⟨34, w⟩).toOption
  else if nbits = 8 then
    if w < 4 then (decode (.request (exampleArgs w)) ⟨2, w⟩).toOption else (decode .capture ⟨4, w⟩).toOption
  else if nbits = 16 then (decode .physicalIr ⟨exampleTap.irlen, w⟩).toOption
  else if nbits = 32 then
    if w / 2 ^ 19 % 2 ^ 8 = 8 then (decode .nodeRegister ⟨32, w⟩).toOption else (decode .hubRegister ⟨32, w⟩).toOption
  else if nbits = 64 then (decode .hubAddressing ⟨64, w⟩).toOption
  else none

end Sys2Proof
end

