-- ==== Sys2Proof/Machine/State.lean ====
section
/-!
DEFINITION. The state of the machine as plain data (spec 10_state.md), the reasons a step can stop, and the state after reset.
Registers the engine owns come first, then what it depends on and does not own (spec 10_state.md section 5), then the channels
of spec 00_scope.md R9 on which the host and the scan-chain engine act.
-/

namespace Sys2Proof.Machine

/-- The protocol step the sequencer is in, its program counter (spec 10_state.md R30). Codes 14 and 15 are reserved and have
no name (spec 93_implementation_defined.md U21). -/
inductive Stage where
  | idle
  | s1Reset
  | s2SelVir
  | s3HubAddr0
  | s4SelVdr
  | s5HubRead
  | s6Derive
  | s7Enum
  | s8Final
  | s9Handoff
  | r0Check
  | raSelVir
  | rbVirShift
  | rcSelVdr
  deriving DecidableEq, Repr

/-- The 4-bit code of a stage (spec 10_state.md R30). -/
def Stage.code : Stage → BitVec 4
  | .idle => 0
  | .s1Reset => 1
  | .s2SelVir => 2
  | .s3HubAddr0 => 3
  | .s4SelVdr => 4
  | .s5HubRead => 5
  | .s6Derive => 6
  | .s7Enum => 7
  | .s8Final => 8
  | .s9Handoff => 9
  | .r0Check => 10
  | .raSelVir => 11
  | .rbVirShift => 12
  | .rcSelVdr => 13

/-- `CMD_KIND` (spec 10_state.md R37): `DISCOVER` is 0, `ROUTE` is 1. -/
inductive CmdKind where
  | discover
  | route
  deriving DecidableEq, Repr

/-- The outcome of a command (spec 30_encoding.md R113). -/
inductive ResultCode where
  | success
  | noVjtagFound
  | transportError
  | notDiscovered
  deriving DecidableEq, Repr

/-- The 2-bit result code (spec 30_encoding.md R113). -/
def ResultCode.code : ResultCode → BitVec 2
  | .success => 0
  | .noVjtagFound => 1
  | .transportError => 2
  | .notDiscovered => 3

/-- A scan request as queued (spec 41_scan_interface.md R161 to R163). The out-bits are the value the buffer held when the
request was emitted (notes/assumptions/18.md); a capture buffer is named, to be filled when the request is executed. -/
inductive Request where
  | resetTap
  | shiftIr (tap : Tap) (width value : Nat)
  | shiftDr (width : Nat) (out : Option Nat) (cap : Option BufId)
  deriving DecidableEq, Repr

/-- One entry of what is observable of the engine's use of the scan-chain engine: a request issued, with every argument, or a
call of `execute_queue`, which has none (spec 00_scope.md R10 (a)). Either is entered when it is issued; what the call is answered
is an input (spec 41_scan_interface.md R168) and no entry. -/
inductive ScanEvent where
  | request (r : Request)
  | execute
  deriving DecidableEq, Repr

/-- A command transaction: the 34-bit word and the TAP handle beside it (spec 30_encoding.md R114). -/
structure Command where
  word : BitVec 34
  tap : Tap
  deriving DecidableEq, Repr

/-- Whether the last command presented was accepted (spec 30_encoding.md R111). The model's own field: notes/assumptions/2.md. -/
inductive CmdAck where
  | nonePresented
  | accepted
  | notAccepted
  deriving DecidableEq, Repr

/-- The four fields of a Hub Configuration Register (spec 40_codec.md R135). -/
structure HubFields where
  version : BitVec 5
  nodeCount : BitVec 8
  mfg : BitVec 11
  m : BitVec 8
  deriving DecidableEq, Repr

/-- The four fields of a Node Info Register (spec 40_codec.md R136). -/
structure NodeFields where
  version : BitVec 5
  nodeId : BitVec 8
  mfg : BitVec 11
  inst : BitVec 8
  deriving DecidableEq, Repr

/-- The value a codec or macro call returned to its caller (spec 40_codec.md R140: a codec function writes nothing but the
named buffer, so its result is no register of the engine). The model's own field: notes/assumptions/12.md. -/
inductive Ret where
  | nothing
  | nat (v : Nat)
  | word (w : BitVec 32)
  | hub (f : HubFields)
  | node (f : NodeFields)
  deriving DecidableEq, Repr

/-- The byte buffers (spec 10_state.md R38; 20_memory.md R60). -/
structure Memory where
  irbuf : Buffer
  drbuf : Buffer
  capbuf : Buffer
  /-- The buffer of a caller of the codec: the model's own, notes/assumptions/12.md. -/
  caller : Buffer
  deriving DecidableEq, Repr

/-- The sizes that memory keeps: `DRBUF` 64 bits, `CAPBUF` one byte (spec 10_state.md R38). -/
def Memory.wf (m : Memory) : Bool := m.drbuf.length == 8 && m.capbuf.length == 1

/-- The hub's virtual-IR selection: the last word shifted in and its width (spec 10_state.md R46; 20_memory.md R70 (c)). -/
structure VirSel where
  width : Nat
  word : Nat
  deriving DecidableEq, Repr

/-- What the completed requests left at the far end (spec 10_state.md R45, R46). The engine owns none of it and no rule
reads it; `none` is "not known" (spec 93_implementation_defined.md U15). notes/assumptions/5.md. -/
structure FarEnd where
  /-- The value in the TAP's physical instruction register. -/
  ir : Option Nat
  /-- The hub's virtual-IR selection. -/
  vir : Option VirSel
  /-- Nibbles taken from the hub's stream since hub address 0 was selected. -/
  pos : Option Nat
  deriving DecidableEq, Repr

/-- Nothing is known of the far end. -/
def FarEnd.unknown : FarEnd := ⟨none, none, none⟩

/-- The channels on which the outside acts: the command channel, the scan completion channel, and an asked-for reset
(spec 00_scope.md R8, R9). The model's own fields: notes/assumptions/2.md, 4.md, 7.md. -/
structure Env where
  /-- Commands put on the channel and not yet taken, oldest first. -/
  commands : List Command
  /-- Answers of `execute_queue` already determined, oldest first. -/
  answers : List Answer
  /-- Captured bits already determined, one entry per capturing scan, oldest first. -/
  captures : List Nat
  /-- Counter of the free values drawn. -/
  draws : Nat
  /-- The outside asks for an engine reset. -/
  resetReq : Bool
  deriving DecidableEq, Repr

/-- What the engine has shown on its channels (spec 00_scope.md R10). -/
structure Out where
  ack : CmdAck
  /-- Responses sent, oldest first (spec 30_encoding.md R112). -/
  responses : List ResultCode
  /-- Requests and `execute_queue` calls issued, oldest first. -/
  trace : List ScanEvent
  ret : Ret
  deriving DecidableEq, Repr

/-- The state of the machine. -/
structure State where
  /-- `VALID` (spec 10_state.md R24). -/
  valid : Bool
  /-- `NODE_COUNT` (spec 10_state.md R21, R29). -/
  nodeCount : BitVec 8
  /-- `M_WIDTH` (spec 10_state.md R22, R29). -/
  mWidth : BitVec 8
  /-- `VJTAG_ADDR` (spec 10_state.md R23, R29). -/
  vjtagAddr : BitVec 8
  /-- `STAGE` (spec 10_state.md R30). -/
  stage : Stage
  /-- The engine is blocked in `execute_queue` (spec 20_memory.md R76 (b), 41_scan_interface.md R164). -/
  awaiting : Bool
  /-- `NIB_CNT` (spec 10_state.md R31). -/
  nibCnt : BitVec 4
  /-- `NODE_IDX` (spec 10_state.md R32). -/
  nodeIdx : BitVec 8
  /-- `ACC` (spec 10_state.md R35). -/
  acc : BitVec 32
  /-- `FOUND` (spec 10_state.md R36). -/
  found : Bool
  /-- `CMD_KIND` (spec 10_state.md R37). -/
  cmdKind : CmdKind
  /-- `CMD_TAP` (spec 10_state.md R37). -/
  cmdTap : Tap
  /-- `CMD_VIR` (spec 10_state.md R37). -/
  cmdVir : BitVec 32
  /-- `IRBUF`, `DRBUF`, `CAPBUF` and a caller's buffer (spec 10_state.md R38). -/
  mem : Memory
  /-- `RESULT` (spec 10_state.md R40). -/
  result : ResultCode
  /-- A response has been sent since reset, so that `RESULT` holds a value (spec 10_state.md R48). -/
  responded : Bool
  /-- `ERR_STAGE` (spec 10_state.md R41). -/
  errStage : Stage
  /-- `ERR_RAW` (spec 10_state.md R42). -/
  errRaw : BitVec 32
  /-- `ERR_RAW_VALID` (spec 10_state.md R42). -/
  errRawValid : Bool
  /-- `ERR_TOKEN`; "holds no value otherwise" (spec 10_state.md R43). -/
  errToken : Option ErrToken
  /-- The scan queue, the scan-chain engine's (spec 10_state.md R44). -/
  queue : List Request
  /-- The far end, the device's (spec 10_state.md R45, R46). -/
  far : FarEnd
  env : Env
  out : Out
  deriving DecidableEq, Repr

/-- Why the machine stops. -/
inductive Fault where
  /-- Raised by `step` in `RB_VIR_SHIFT` with `VALID = 0`: the routed word would be computed from an unset Discovery Result,
  which the spec forbids ("fail fast rather than compute with a sentinel address", spec 10_state.md R25;
  93_implementation_defined.md U6: "`fault` if any model rule does it (none does)"). Safe; no run from reset reaches it. -/
  | discoveryResultUnset
  deriving DecidableEq, Repr

/-- Why an instruction has no meaning. -/
inductive Refusal where
  /-- Raised by `exec` for an instruction that the model gives no meaning yet. Safe. -/
  | notModelled (mnemonic : String)
  /-- Raised by `DISCOVER`, `ROUTE`, `SHIFT_IR`, `SEL_VIR`, `SEL_VDR`: a TAP handle with `IRLEN < 4` ("a model refuses such a
  TAP handle", spec 41_scan_interface.md R169). Safe. -/
  | tapHandleTooNarrow
  /-- Raised by `PACK`, `UNPACK`: a width above 64 ("outside the contract and a model refuses it", spec 20_memory.md R69). Safe. -/
  | codecWidth
  /-- Raised by `PACK`, `UNPACK`, `SHIFT_IR`, `SHIFT_DR`: a field beyond the buffer's capacity ("outside the source's contract;
  a model refuses it", spec 20_memory.md R66). Safe. -/
  | bufferCapacity
  deriving DecidableEq, Repr

/-- The state after engine reset (spec 10_state.md R48): `VALID = 0`, `STAGE = IDLE`, `ERR_RAW_VALID = 0`, no `ERR_TOKEN`. Every
other value is the model's choice (DESIGN CHOICE, notes/assumptions/6.md): the spec calls those registers unspecified. Nothing
stands on a channel. -/
def State.reset : State where
  valid := false
  nodeCount := 0
  mWidth := 0
  vjtagAddr := 0
  stage := .idle
  awaiting := false
  nibCnt := 0
  nodeIdx := 0
  acc := 0
  found := false
  cmdKind := .discover
  cmdTap := ⟨0, 0⟩
  cmdVir := 0
  mem := ⟨[], [0, 0, 0, 0, 0, 0, 0, 0], [0], []⟩
  result := .success
  responded := false
  errStage := .idle
  errRaw := 0
  errRawValid := false
  errToken := none
  queue := []
  far := .unknown
  env := ⟨[], [], [], 0, false⟩
  out := ⟨.nonePresented, [], [], .nothing⟩

end Sys2Proof.Machine
end

