-- ==== Sys2Proof/Machine/Ops.lean ====
section
/-!
DEFINITION. The named operations over buffers, the scan queue and the registers that the meanings share: bit-addressed
buffers, emitting and executing scan requests, taking one of the three failure conditions (`State.raise`), the response of
success, the engine reset, and what the host can read.
-/

namespace Sys2Proof

/-- `buf.bit[j]` (spec 20_memory.md R60). -/
def Buffer.bit (b : Buffer) (j : Nat) : Bool := (b.getD (j / 8) 0).getLsbD (j % 8)

/-- A byte with bit `i` set to `v`. -/
def Byte.setBit (y : Byte) (i : Nat) (v : Bool) : Byte :=
  if v then y ||| (1#8 <<< i) else y &&& ~~~(1#8 <<< i)

/-- `buf.bit[j] <- v`. -/
def Buffer.setBit (b : Buffer) (j : Nat) (v : Bool) : Buffer :=
  b.set (j / 8) (Byte.setBit (b.getD (j / 8) 0) (j % 8) v)

/-- `buf.bit[off + k] <- v[k]` for `k` below `w`, every other bit kept (spec 40_codec.md R130). -/
def Buffer.pack (b : Buffer) (off v : Nat) : Nat → Buffer
  | 0 => b
  | k + 1 => (Buffer.pack b off v k).setBit (off + k) (v.testBit k)

/-- The sum of `buf.bit[off + k] * 2^k` over `k` below `w` (spec 40_codec.md R131). -/
def Buffer.unpack (b : Buffer) (off : Nat) : Nat → Nat
  | 0 => 0
  | k + 1 => Buffer.unpack b off k + (b.bit (off + k)).toNat * 2 ^ k

/-- A buffer of `bytes` zero bytes. -/
def Buffer.zeros (bytes : Nat) : Buffer := List.replicate bytes 0

/-- A buffer given another size: the bytes that still fit are kept, bytes it gains are zero. -/
def Buffer.resize (b : Buffer) (bytes : Nat) : Buffer := b.take bytes ++ Buffer.zeros (bytes - b.length)

/-- Capacity in bits (spec 20_memory.md R60). -/
def Buffer.capacity (b : Buffer) : Nat := 8 * b.length

end Sys2Proof

namespace Sys2Proof.Machine

/-- The buffer of a name. -/
def Memory.get (m : Memory) : BufId → Buffer
  | .irbuf => m.irbuf
  | .drbuf => m.drbuf
  | .capbuf => m.capbuf
  | .caller => m.caller

/-- Replaces the buffer of a name. -/
def Memory.set (m : Memory) (i : BufId) (b : Buffer) : Memory :=
  match i with
  | .irbuf => { m with irbuf := b }
  | .drbuf => { m with drbuf := b }
  | .capbuf => { m with capbuf := b }
  | .caller => { m with caller := b }

/-- `MemWrite(buf, off, w, v)` on a named buffer (spec 00_scope.md R14). -/
def Memory.pack (m : Memory) (i : BufId) (off w v : Nat) : Memory := m.set i (Buffer.pack (m.get i) off v w)

/-! ### The far end: what a completed request leaves there (spec 10_state.md R45, R46; 20_memory.md R70) -/

/-- An instruction has been loaded into the physical IR. `USER0` after `USER1` keeps the stream position: hub address 0 was
selected before and its data register is now exposed (spec 10_state.md R46 (a)). -/
def FarEnd.loadIr (f : FarEnd) (v : Nat) : FarEnd :=
  { f with ir := some v, pos := if v = Config.user0 ∧ f.ir = some Config.user1 then f.pos else none }

/-- One complete scan of the physical data register: while `USER1` is selected it writes the hub's virtual-IR selection; while
`USER0` is selected a 4-bit scan takes one nibble from the stream; otherwise what it reaches is not known. -/
def FarEnd.scanDr (f : FarEnd) (w : Nat) (out : Option Nat) : FarEnd :=
  if f.ir = some Config.user1 then
    { f with
      vir := out.map (VirSel.mk w)
      pos := if w = Config.zeroFillBits ∧ out = some 0 then some 0 else none }
  else if f.ir = some Config.user0 then
    { f with pos := if w = Config.nibbleBits then f.pos.map (· + 1) else none }
  else { f with vir := none, pos := none }

/-- The effect of one completed request. After a TAP reset nothing is assumed (spec 41_scan_interface.md R161). One record serves
every TAP, so the handle of a `shift_instruction` is not looked at: DESIGN CHOICE, notes/assumptions/5.md. -/
def FarEnd.perform (f : FarEnd) : Request → FarEnd
  | .resetTap => .unknown
  | .shiftIr _ _ v => f.loadIr v
  | .shiftDr w out _ => f.scanDr w out

/-! ### The scan completion channel (spec 41_scan_interface.md R164, R168; notes/assumptions/4.md) -/

/-- The answer of the next `execute_queue`: the one on the channel, or a free value. -/
def Env.nextAnswer (e : Env) : Answer :=
  match e.answers with
  | a :: _ => a
  | [] => Config.freeAnswer e.draws

/-- The channel after that answer. -/
def Env.dropAnswer (e : Env) : Env :=
  match e.answers with
  | _ :: as => { e with answers := as }
  | [] => { e with draws := e.draws + 1 }

/-- The bits the next capturing scan returns: those on the channel, or a free value. -/
def Env.nextCapture (e : Env) : Nat :=
  match e.captures with
  | c :: _ => c
  | [] => Config.freeCapture e.draws

/-- The channel after that capture. -/
def Env.dropCapture (e : Env) : Env :=
  match e.captures with
  | _ :: cs => { e with captures := cs }
  | [] => { e with draws := e.draws + 1 }

/-- All capture buffers of the queued requests filled, in order (spec 41_scan_interface.md R164: on success "every capture
buffer is filled"). The scan's width of low bits is filled (R163). The spec is silent on the bits above it, bits 7:4 of `CAPBUF`,
which nothing reads (92_eei_decisions.md D19): they keep what they held, DESIGN CHOICE, notes/assumptions/26.md.
That a buffer holds the scan's width is looked at when the request is emitted; where it no longer does (`IRBUF` has become smaller
since, or the request is a foreign one), the bits beyond its end go nowhere, DESIGN CHOICE, notes/assumptions/28.md. -/
def fillCaptures : List Request → Env × Memory → Env × Memory
  | [], p => p
  | .shiftDr w _ (some b) :: rs, (e, m) => fillCaptures rs (e.dropCapture, m.pack b 0 w e.nextCapture)
  | .shiftDr _ _ none :: rs, p => fillCaptures rs p
  | .shiftIr _ _ _ :: rs, p => fillCaptures rs p
  | .resetTap :: rs, p => fillCaptures rs p

/-- After a failure "capture buffers hold no value" (spec 41_scan_interface.md R164): each is left with a free value
(notes/assumptions/17.md) in the low bits that the scan would have filled; the bits above keep what they held (notes/assumptions/26.md),
and bits beyond the buffer's end go nowhere (notes/assumptions/28.md). -/
def loseCaptures : List Request → Env × Memory → Env × Memory
  | [], p => p
  | .shiftDr w _ (some b) :: rs, (e, m) =>
    loseCaptures rs ({ e with draws := e.draws + 1 }, m.pack b 0 w (Config.freeCapture e.draws))
  | .shiftDr _ _ none :: rs, p => loseCaptures rs p
  | .shiftIr _ _ _ :: rs, p => loseCaptures rs p
  | .resetTap :: rs, p => loseCaptures rs p

/-! ### Requests and responses -/

/-- One more entry of the observable trace (spec 00_scope.md R10 (a)). -/
def Out.log (o : Out) (e : ScanEvent) : Out := { o with trace := o.trace ++ [e] }

/-- A response sent (spec 30_encoding.md R112). -/
def Out.respond (o : Out) (c : ResultCode) : Out := { o with responses := o.responses ++ [c] }

/-- `emit`: appends a request to the scan queue (spec 41_scan_interface.md R160). Whether an `execute_queue` is outstanding is not
looked at: the sequencer emits nothing then (spec 20_memory.md R76 (b)), and for the bare operations it is a DESIGN CHOICE,
notes/assumptions/27.md. -/
def State.emit (s : State) (r : Request) : State :=
  { s with queue := s.queue ++ [r], out := s.out.log (.request r) }

/-- `execute_queue` is called: the call is observable from here on (spec 00_scope.md R10 (a)), and the engine is blocked until it is
answered (spec 41_scan_interface.md R164). -/
def State.await (s : State) : State := { s with awaiting := true, out := s.out.log .execute }

/-- The call returns a value to its caller (notes/assumptions/12.md). -/
def State.returns (s : State) (r : Ret) : State := { s with out := { s.out with ret := r } }

/-- `execute_queue` answered `success`: every queued request completed in order, every capture buffer filled, the queue empty
(spec 41_scan_interface.md R164). -/
def State.executed (s : State) : State :=
  let p := fillCaptures s.queue (s.env.dropAnswer, s.mem)
  { s with
    awaiting := false
    queue := []
    far := s.queue.foldl FarEnd.perform s.far
    env := p.1
    mem := p.2 }

/-- `execute_queue` answered `transport_error`: some request did not complete, the far end is no longer known
(spec 60_exceptions.md R257, U15, U16), and the failed requests do not stay queued (spec 41_scan_interface.md R166;
notes/assumptions/16.md). -/
def State.executeFailed (s : State) : State :=
  let p := loseCaptures s.queue (s.env.dropAnswer, s.mem)
  { s with
    awaiting := false
    queue := []
    far := .unknown
    env := p.1
    mem := p.2 }

/-- The three failure conditions (spec 60_exceptions.md R250). -/
inductive Condition where
  | transportError (token : ErrToken)
  | noVjtagFound
  | notDiscovered
  deriving DecidableEq, Repr

/-- The result code of a condition (spec 60_exceptions.md R251 to R253). -/
def Condition.result : Condition → ResultCode
  | .transportError _ => .transportError
  | .noVjtagFound => .noVjtagFound
  | .notDiscovered => .notDiscovered

/-- What `ERR_TOKEN` is set to: "holds no value otherwise" (spec 10_state.md R43). -/
def Condition.token : Condition → Option ErrToken
  | .transportError t => some t
  | .noVjtagFound => none
  | .notDiscovered => none

/-- The stages of the routed scan, steps a, b, c (spec 43_routing.md R233 to R235). -/
def Stage.isRouted : Stage → Bool
  | .raSelVir => true
  | .rbVirShift => true
  | .rcSelVdr => true
  | _ => false

/-- `VALID <- 0` on a failure of step 9, that is, of the routed scan inside a `discover` (spec 42_discovery.md R201), and on no
other failure (spec 43_routing.md R236). R201 has transport failures only, and in a run no other condition arises there; that the
bit is withdrawn for each of the three is a DESIGN CHOICE, notes/assumptions/13.md. -/
def State.withdraws (s : State) : Bool := s.cmdKind == .discover && s.stage.isRouted

/-- `raise <Condition>(info)`, taking one of the three failure conditions, in one step (spec 60_exceptions.md R256): nothing
more is emitted; `VALID` is withdrawn in step 9; `ERR_STAGE` and `ERR_TOKEN` are set (`ERR_RAW` and its valid bit already hold
what spec 10_state.md R42 says); `RESULT` is the condition's code; the engine is idle; the response is sent. There is no return
from it (spec 60_exceptions.md R260). The stage and the command are not looked at: that a condition is taken where R250 to R254 say
it does not arise (in `IDLE`, or in a stage or command that cannot raise it) is a DESIGN CHOICE, notes/assumptions/13.md. -/
def State.raise (s : State) (c : Condition) : State :=
  { s with
    valid := s.valid && !s.withdraws
    errStage := s.stage
    errToken := c.token
    result := c.result
    responded := true
    stage := .idle
    awaiting := false
    out := s.out.respond c.result }

/-- `respond(success)`: `RESULT` is written, the error registers are not (spec 30_encoding.md R112, 10_state.md R41). -/
def State.succeed (s : State) : State :=
  { s with
    result := .success
    responded := true
    stage := .idle
    awaiting := false
    out := s.out.respond .success }

/-- How a macro goes on: to its next operation, or not, because a failure has ended the command. -/
inductive Flow where
  | go (s : State)
  | ended (s : State)
  deriving DecidableEq, Repr

/-- The state either way. -/
def Flow.state : Flow → State
  | .go s => s
  | .ended s => s

/-- What to do with the state of a macro that goes on. -/
def Flow.andThen (f : Flow) (g : State → State) : State :=
  match f with
  | .go s => g s
  | .ended s => s

/-- The call of `execute_queue` that is outstanding is answered; `if r = transport_error(tok): raise TransportError(tok)`
(spec 41_scan_interface.md R164, R167). -/
def State.answered (s : State) : Flow :=
  match s.env.nextAnswer with
  | .success => .go s.executed
  | .transportError tok => .ended (s.executeFailed.raise (.transportError (.chain tok)))

/-- `emit r`, then `r <- execute_queue(); if r = transport_error(tok): raise TransportError(tok)`: one request served whole, as
the macro-operations do it (spec 41_scan_interface.md R166, R167). With an `execute_queue` outstanding already, where the spec has
the engine emit nothing (20_memory.md R76 (b)), the one answer ends both calls: DESIGN CHOICE, notes/assumptions/27.md. -/
def State.serve (s : State) (r : Request) : Flow := (s.emit r).await.answered

/-! ### Engine reset (spec 70_reset_and_hazards.md R290 to R293) -/

/-- The scan queue after an engine reset, which sends nothing and resets nothing that is not the engine's: as it was, but a
request of a command in progress only "may be left" there (spec 70_reset_and_hazards.md R293; notes/assumptions/7.md). -/
def State.queueAfterReset (s : State) : List Request :=
  if s.stage != .idle && !Config.freeKeepsQueue s.env.draws then [] else s.queue

/-- Engine reset: every register of the engine as `State.reset` has it, no response sent, the channels kept. After a reset in the
middle of a command, at whatever point of it, the far end is not known (spec 70_reset_and_hazards.md R293,
93_implementation_defined.md U23); between commands the reset leaves it alone (R291). -/
def State.engineReset (s : State) : State :=
  { State.reset with
    mem := { State.reset.mem with caller := s.mem.caller }
    queue := s.queueAfterReset
    far := if s.stage != .idle then .unknown else s.far
    env := { s.env with resetReq := false, draws := s.env.draws + 1 }
    out := s.out }

/-! ### What the host can read (spec 00_scope.md R10 (c)) -/

/-- The host-readable registers (spec 10_state.md R20 to R24, R40 to R43). -/
inductive HostReg where
  | valid
  | nodeCount
  | mWidth
  | vjtagAddr
  | result
  | errStage
  | errRaw
  | errRawValid
  | errToken
  deriving DecidableEq, Repr

/-- What a host read answers. -/
inductive HostValue where
  | bits (v : Nat)
  | token (t : ErrToken)
  deriving DecidableEq, Repr

/-- A discovery run is in progress: a `discover` that has not been answered, step 9 included (spec 42_discovery.md R190, R200). That
a `route_to_node` is no run in the sense of 20_memory.md R82: notes/assumptions/25.md. -/
def State.running (s : State) : Bool := s.stage != .idle && s.cmdKind == .discover

/-- The host may read `NODE_COUNT`, `M_WIDTH` and `VJTAG_ADDR`: only while `VALID` is 1 (spec 10_state.md R25), and never while a run
is in progress (spec 20_memory.md R82). -/
def State.resultReadable (s : State) : Bool := s.valid && !s.running

/-- A host read: `none` where the register holds no value, so that the read is refused (spec 10_state.md R25, R40 to R43, R48;
notes/assumptions/9.md), and for the fields of the Discovery Result while a run is in progress (`State.resultReadable`). DESIGN
CHOICE, notes/assumptions/25.md: the other registers are read whenever their own condition holds, also while a command is in
progress. So `ERR_RAW` reads as soon as `ERR_RAW_VALID` is 1 (R42, 42_discovery.md R195), in the first run too, where R48 says no
value until the first response; and the flag `VALID` always reads. -/
def State.hostRead (s : State) : HostReg → Option HostValue
  | .valid => some (.bits s.valid.toNat)
  | .nodeCount => if s.resultReadable then some (.bits s.nodeCount.toNat) else none
  | .mWidth => if s.resultReadable then some (.bits s.mWidth.toNat) else none
  | .vjtagAddr => if s.resultReadable then some (.bits s.vjtagAddr.toNat) else none
  | .result => if s.responded then some (.bits s.result.code.toNat) else none
  | .errStage => if s.errStage = .idle then none else some (.bits s.errStage.code.toNat)
  | .errRaw => if s.errRawValid then some (.bits s.errRaw.toNat) else none
  | .errRawValid => some (.bits s.errRawValid.toNat)
  | .errToken => if s.result = .transportError then s.errToken.map .token else none

end Sys2Proof.Machine
end

