-- ==== Sys2Proof/Machine/Operands.lean ====
section
/-!
DEFINITION. How every shifted value and every decoded value is assembled, complete (spec 30_encoding.md R99): (a) the IR value,
(b) the zero fill, (c) the routed VIR word, (d) the captured nibble, (e) the 32-bit word, (f) its fields, (g) `n`. These are the
functions of the Bit-Field Codec (spec 40_codec.md) and the buffers the sequencer packs with them.
-/

namespace Sys2Proof.Machine

/-- `address_field_width(c)`: the least `n` with `2^n ≥ c + 1`, that is, the number of bits in the binary numeral of `c`
(spec 40_codec.md R132). R99 (g). -/
def addressFieldWidth (c : Nat) : Nat := if c = 0 then 0 else c.log2 + 1

/-- `NIBACC(acc, x)` (spec 40_codec.md R133). -/
def nibAcc (acc : BitVec 32) (x : Nat) : BitVec 32 := (acc >>> 4) ||| ((BitVec.ofNat 4 x).setWidth 32 <<< 28)

/-- `ASM32` of nibbles in capture order, the accumulator starting at 0 (spec 40_codec.md R134). R99 (e). -/
def assemble32 (xs : List Nat) : BitVec 32 := xs.foldl nibAcc 0

/-- `DEC_HUB(w)` (spec 40_codec.md R135). R99 (f). -/
def decHub (w : BitVec 32) : HubFields where
  version := w.extractLsb' 27 5
  nodeCount := w.extractLsb' 19 8
  mfg := w.extractLsb' 8 11
  m := w.extractLsb' 0 8

/-- `DEC_NODE(w)` (spec 40_codec.md R136). R99 (f). -/
def decNode (w : BitVec 32) : NodeFields where
  version := w.extractLsb' 27 5
  nodeId := w.extractLsb' 19 8
  mfg := w.extractLsb' 8 11
  inst := w.extractLsb' 0 8

/-- `MKVIR(addr, n, m, vir_val)` on unbounded naturals, then truncated; an over-wide value is neither masked nor refused
(spec 40_codec.md R137). R99 (c). -/
def mkVir (addr n m virVal : Nat) : Nat := ((addr <<< m) ||| virVal) % 2 ^ (n + m)

/-- A word of a register format, put together from its fields (spec 30_encoding.md R93, R94). -/
def joinFields (version : BitVec 5) (count : BitVec 8) (mfg : BitVec 11) (m : BitVec 8) : BitVec 32 :=
  version ++ count ++ mfg ++ m

/-- `n`, recomputed from `NODE_COUNT` (spec 10_state.md R26). -/
def State.addrWidth (s : State) : Nat := addressFieldWidth s.nodeCount.toNat

/-- The length `n + m` of a routed word (spec 43_routing.md R232). -/
def State.routedWidth (s : State) : Nat := s.addrWidth + s.mWidth.toNat

/-- The routed VIR word (spec 43_routing.md R232). -/
def State.routedWord (s : State) : Nat := mkVir s.vjtagAddr.toNat s.addrWidth s.mWidth.toNat s.cmdVir.toNat

/-- The bytes of `IRBUF` for a handle: `ceil(IRLEN/8)` (spec 10_state.md R38). -/
def irBytes (irlen : Nat) : Nat := (irlen + 7) / 8

/-- `IRBUF` given the size that belongs to a handle, its contents kept as far as they fit, the other buffers as they were. Bytes it
gains are zero, DESIGN CHOICE, notes/assumptions/10.md. -/
def Memory.forHandle (m : Memory) (tap : Tap) : Memory := { m with irbuf := m.irbuf.resize (irBytes tap.irlen) }

/-- `IRBUF`, at the size of a handle, with a physical opcode packed into it: `IRLEN` bits, the opcode zero-extended (spec 30_encoding.md R92, R99 (a)).
notes/assumptions/10.md. -/
def irBuffer (b : Buffer) (irlen opcode : Nat) : Buffer := Buffer.pack (b.resize (irBytes irlen)) 0 opcode irlen

/-- `pack(IRBUF, 0, IRLEN, opcode)`. -/
def State.packIr (s : State) (tap : Tap) (opcode : Nat) : State :=
  { s with mem := { s.mem with irbuf := irBuffer s.mem.irbuf tap.irlen opcode } }

/-- `DRBUF <- 64 zero bits` (spec 42_discovery.md R193, R99 (b)). -/
def State.packZeros (s : State) : State := { s with mem := { s.mem with drbuf := Buffer.zeros 8 } }

/-- `pack(DRBUF, 0, n + m, MKVIR(..))` (spec 43_routing.md R234, R99 (c)). -/
def State.packRouted (s : State) : State := { s with mem := s.mem.pack .drbuf 0 s.routedWidth s.routedWord }

/-- `unpack(CAPBUF, 0, 4)` (spec 41_scan_interface.md R171, R99 (d)). -/
def State.capturedNibble (s : State) : Nat := Buffer.unpack s.mem.capbuf 0 Config.nibbleBits

/-- The request of an IR shift of the low `w` bits of a buffer. -/
def State.irRequest (s : State) (tap : Tap) (w : Nat) (b : BufId) : Request :=
  .shiftIr tap w (Buffer.unpack (s.mem.get b) 0 w)

/-- The request of a DR shift: the out-bits are the low `w` bits of the out-buffer (spec 41_scan_interface.md R163). -/
def State.drRequest (s : State) (w : Nat) (out cap : Option BufId) : Request :=
  .shiftDr w (out.map fun b => Buffer.unpack (s.mem.get b) 0 w) cap

/-- A buffer operand, where there is one, holds at least `w` bits (spec 20_memory.md R66). -/
def State.fits (s : State) (w : Nat) : Option BufId → Bool
  | none => true
  | some b => w ≤ Buffer.capacity (s.mem.get b)

end Sys2Proof.Machine
end

