-- ==== Sys2Proof/Machine/Flags.lean ====
section
/-!
DEFINITION. The engine has no condition codes and no arithmetic flags; its one-bit state is `VALID`, `FOUND`, `CMD_KIND`,
`ERR_RAW_VALID` and the derived `BUSY` (spec 10_state.md R47). This file holds every operation that writes one of them but for
the failure entry (`State.raise`) and reset, and the register writes that the same rule makes with it.
-/

namespace Sys2Proof.Machine

/-- `BUSY` (spec 10_state.md R33). -/
def State.busy (s : State) : Bool := s.stage != .idle

/-- Acceptance of `discover` (spec 42_discovery.md R190): the latches, `VALID <- 0`, `FOUND <- 0`, `ERR_RAW_VALID <- 0`.
`IRBUF` has `ceil(IRLEN/8)` bytes from here on (spec 10_state.md R38), its contents kept as far as they fit. -/
def State.acceptDiscover (s : State) (tap : Tap) : State :=
  { s with
    cmdKind := .discover
    cmdTap := tap
    mem := s.mem.forHandle tap
    valid := false
    found := false
    errRawValid := false
    stage := .s1Reset
    awaiting := false
    out := { s.out with ack := .accepted } }

/-- Acceptance of `route_to_node` (spec 43_routing.md R230): the latches, `ERR_RAW_VALID <- 0`. `IRBUF` as for
`discover`. -/
def State.acceptRoute (s : State) (virVal : BitVec 32) (tap : Tap) : State :=
  { s with
    cmdKind := .route
    cmdTap := tap
    mem := s.mem.forHandle tap
    cmdVir := virVal
    errRawValid := false
    stage := .r0Check
    awaiting := false
    out := { s.out with ack := .accepted } }

/-- A command that is not accepted has no effect on the engine (spec 30_encoding.md R111); the command channel shows it
(notes/assumptions/2.md). -/
def State.notAccepted (s : State) : State := { s with out := { s.out with ack := .notAccepted } }

/-- The register writes of step 5 (spec 42_discovery.md R195). -/
def State.takeHubWord (s : State) (w : BitVec 32) (nodeCount m : BitVec 8) : State :=
  { s with nodeCount := nodeCount, mWidth := m, errRaw := w, errRawValid := true }

/-- `ERR_RAW <- w` for every node read of step 7 (spec 42_discovery.md R197). -/
def State.takeNodeWord (s : State) (w : BitVec 32) : State := { s with errRaw := w }

/-- The match of step 7: the first node tagged `0x08` is recorded, later ones are not (spec 42_discovery.md R198). -/
def State.recordMatch (s : State) : State :=
  { s with vjtagAddr := if s.found then s.vjtagAddr else s.nodeIdx, found := true }

/-- `READ32` begins: `ACC <- 0 ; NIB_CNT <- 0` (spec 41_scan_interface.md R172). -/
def State.startRead (s : State) : State := { s with acc := 0, nibCnt := 0 }

/-- One nibble taken: `ACC <- NIBACC(ACC, x) ; NIB_CNT <- NIB_CNT + 1` (spec 41_scan_interface.md R172). -/
def State.takeNibble (s : State) (x : Nat) : State := { s with acc := nibAcc s.acc x, nibCnt := s.nibCnt + 1 }

/-- Step 8 publishes: `VALID <- 1` (spec 42_discovery.md R199). -/
def State.publish (s : State) : State := { s with valid := true, stage := .s9Handoff }

end Sys2Proof.Machine
end

