-- ==== Sys2Proof/Machine/Codec.lean ====
section
/-!
DEFINITION. The codec functions as operations (spec 40_codec.md R130 to R137). They are pure (R140): nothing is written but, by
`PACK`, the named buffer; a result goes to the caller's return port (notes/assumptions/12.md). A call outside the contract is
refused (spec 20_memory.md R66, R69).
-/

namespace Sys2Proof.Machine

/-- `PACK` (spec 40_codec.md R130). -/
def execPack (buf : BufId) (off w : Nat) (value : BitVec 64) (s : State) : Host.Outcome State Fault Refusal :=
  if Config.maxFieldBits < w then .refused .codecWidth
  else if Buffer.capacity (s.mem.get buf) < off + w then .refused .bufferCapacity
  else .next { s with mem := s.mem.pack buf off w value.toNat }

/-- `UNPACK` (spec 40_codec.md R131). -/
def execUnpack (buf : BufId) (off w : Nat) (s : State) : Host.Outcome State Fault Refusal :=
  if Config.maxFieldBits < w then .refused .codecWidth
  else if Buffer.capacity (s.mem.get buf) < off + w then .refused .bufferCapacity
  else .next (s.returns (.nat (Buffer.unpack (s.mem.get buf) off w)))

/-- `AFW` (spec 40_codec.md R132). -/
def execAfw (nodeCount : Nat) (s : State) : Host.Outcome State Fault Refusal :=
  .next (s.returns (.nat (addressFieldWidth nodeCount)))

/-- `NIBACC` (spec 40_codec.md R133). -/
def execNibacc (acc : BitVec 32) (x : Nat) (s : State) : Host.Outcome State Fault Refusal :=
  .next (s.returns (.word (nibAcc acc x)))

/-- `ASM32` (spec 40_codec.md R134). -/
def execAsm32 (x0 x1 x2 x3 x4 x5 x6 x7 : Nat) (s : State) : Host.Outcome State Fault Refusal :=
  .next (s.returns (.word (assemble32 [x0, x1, x2, x3, x4, x5, x6, x7])))

/-- `DEC_HUB` (spec 40_codec.md R135). -/
def execDecHub (w : BitVec 32) (s : State) : Host.Outcome State Fault Refusal := .next (s.returns (.hub (decHub w)))

/-- `DEC_NODE` (spec 40_codec.md R136). -/
def execDecNode (w : BitVec 32) (s : State) : Host.Outcome State Fault Refusal := .next (s.returns (.node (decNode w)))

/-- `MKVIR` (spec 40_codec.md R137). -/
def execMkvir (addr : BitVec 8) (n m : Nat) (virVal : BitVec 32) (s : State) : Host.Outcome State Fault Refusal :=
  .next (s.returns (.nat (mkVir addr.toNat n m virVal.toNat)))

end Sys2Proof.Machine
end

