-- ==== Sys2Proof/Machine/Commands.lean ====
section
/-!
DEFINITION. The host commands (spec 30_encoding.md R110 to R114). The meaning of a command is its acceptance; what it then does
is done by the stages, one transaction a step (Machine/Sequencer.lean). While the engine is busy a command is not accepted and
has no effect on it; a TAP handle with `IRLEN < 4` is refused (notes/assumptions/3.md).
-/

namespace Sys2Proof.Machine

/-- `DISCOVER` (spec 42_discovery.md R190; 30_encoding.md R111). -/
def execDiscover (tap : Tap) (s : State) : Host.Outcome State Fault Refusal :=
  if s.busy then .next s.notAccepted
  else if tap.irlen < Config.minIrlen then .refused .tapHandleTooNarrow
  else .next (s.acceptDiscover tap)

/-- `ROUTE` (spec 43_routing.md R230; 30_encoding.md R111). -/
def execRoute (virVal : BitVec 32) (tap : Tap) (s : State) : Host.Outcome State Fault Refusal :=
  if s.busy then .next s.notAccepted
  else if tap.irlen < Config.minIrlen then .refused .tapHandleTooNarrow
  else .next (s.acceptRoute virVal tap)

/-- Reserved code `0b00`: "A command with a reserved code is not accepted" (spec 30_encoding.md R111). -/
def execCmdReserved00 (s : State) : Host.Outcome State Fault Refusal := .next s.notAccepted

/-- Reserved code `0b11`: "A command with a reserved code is not accepted" (spec 30_encoding.md R111). -/
def execCmdReserved11 (s : State) : Host.Outcome State Fault Refusal := .next s.notAccepted

end Sys2Proof.Machine
end

