-- ==== Sys2Proof/Machine/Scan.lean ====
section
/-!
DEFINITION. The four operations the engine consumes from the scan-chain engine (spec 41_scan_interface.md R160 to R164) and the
macro-operations built of them (R169 to R172; 42_discovery.md R193; 30_encoding.md R116). A macro runs its whole expansion; a
transport failure in it ends the command in progress (notes/assumptions/22.md). None of these operations but `EXECUTE` looks at
whether an `execute_queue` is outstanding (notes/assumptions/27.md). The sequencer issues the same requests one
transaction a step.
-/

namespace Sys2Proof.Machine

/-- `RESET_TAP` (spec 41_scan_interface.md R161): queued like the shifts. -/
def execResetTap (s : State) : Host.Outcome State Fault Refusal := .next (s.emit .resetTap)

/-- `SHIFT_IR` (spec 41_scan_interface.md R162). -/
def execShiftIr (tap : Tap) (bitWidth : Nat) (value : BufId) (s : State) : Host.Outcome State Fault Refusal :=
  if tap.irlen < Config.minIrlen then .refused .tapHandleTooNarrow
  else if s.fits bitWidth (some value) then .next (s.emit (s.irRequest tap bitWidth value))
  else .refused .bufferCapacity

/-- `SHIFT_DR` (spec 41_scan_interface.md R163). -/
def execShiftDr (bitWidth : Nat) (out cap : Option BufId) (s : State) : Host.Outcome State Fault Refusal :=
  if s.fits bitWidth out && s.fits bitWidth cap then .next (s.emit (s.drRequest bitWidth out cap))
  else .refused .bufferCapacity

/-- `EXECUTE` (spec 41_scan_interface.md R164, R167): the call, unless it is the one already outstanding, and its answer;
with an empty queue it is answered too (notes/assumptions/27.md). -/
def execExecute (s : State) : Host.Outcome State Fault Refusal :=
  .next (if s.awaiting then s else s.await).answered.state

/-- `pack(IRBUF, 0, IRLEN, opcode) ; emit shift_instruction(tap, IRLEN, IRBUF) ; r <- execute_queue()`. -/
def State.serveSelect (s : State) (tap : Tap) (opcode : Nat) : Flow :=
  (s.packIr tap opcode).serve ((s.packIr tap opcode).irRequest tap tap.irlen .irbuf)

/-- `SEL_VIR` (spec 41_scan_interface.md R169). -/
def execSelVir (tap : Tap) (s : State) : Host.Outcome State Fault Refusal :=
  if tap.irlen < Config.minIrlen then .refused .tapHandleTooNarrow
  else .next (s.serveSelect tap Config.user1).state

/-- `SEL_VDR` (spec 41_scan_interface.md R170). -/
def execSelVdr (tap : Tap) (s : State) : Host.Outcome State Fault Refusal :=
  if tap.irlen < Config.minIrlen then .refused .tapHandleTooNarrow
  else .next (s.serveSelect tap Config.user0).state

/-- `emit shift_data(4, none, CAPBUF) ; r <- execute_queue()`. -/
def State.serveNibble (s : State) : Flow := s.serve (s.drRequest Config.nibbleBits none (some .capbuf))

/-- `NIBSCAN` (spec 41_scan_interface.md R171): on success the nibble is returned. -/
def execNibscan (s : State) : Host.Outcome State Fault Refusal :=
  .next (s.serveNibble.andThen fun t => t.returns (.nat t.capturedNibble))

/-- The loop of `READ32`, `k` nibbles to go: each its own request followed by its own `execute_queue`
(spec 41_scan_interface.md R172; 20_memory.md R78). -/
def readNibbles : Nat → State → Flow
  | 0, s => .go s
  | k + 1, s =>
    match s.serveNibble with
    | .go t => readNibbles k (t.takeNibble t.capturedNibble)
    | .ended t => .ended t

/-- `READ32` (spec 41_scan_interface.md R172): on success the word, which is `ACC`, is returned. -/
def execRead32 (s : State) : Host.Outcome State Fault Refusal :=
  .next ((readNibbles Config.nibblesPerWord s.startRead).andThen fun t => t.returns (.word t.acc))

/-- `HUB_ADDR0` (spec 42_discovery.md R193): 64 zero bits, never narrowed. -/
def execHubAddr0 (s : State) : Host.Outcome State Fault Refusal :=
  .next (s.packZeros.serve (s.packZeros.drRequest Config.zeroFillBits (some .drbuf) none)).state

end Sys2Proof.Machine
end

