-- ==== Sys2Proof/Machine/Words.lean ====
section
/-!
DEFINITION. The words that travel, each with its effect on the one who receives it, in whatever state it is run (notes/assumptions/13.md): a physical JTAG
instruction on the TAP, a shifted word on the hub, a register word and a nibble on the engine, a response on the host and, being
the end of a command, on the engine.
-/

namespace Sys2Proof.Machine

/-- `USER0`: the physical data register becomes the virtual data register (spec 30_encoding.md R92, 10_state.md R45). The width is not
looked at: with `irlen` below 4, an ill-formed term, the whole opcode is loaded all the same, DEDUCED, notes/assumptions/21.md. -/
def execUser0 (_irlen : Nat) (s : State) : Host.Outcome State Fault Refusal :=
  .next { s with far := s.far.loadIr Config.user0 }

/-- `USER1`: the physical data register becomes the virtual-IR path (spec 30_encoding.md R92, 10_state.md R45). The width is not looked
at, as for `USER0`: notes/assumptions/21.md. -/
def execUser1 (_irlen : Nat) (s : State) : Host.Outcome State Fault Refusal :=
  .next { s with far := s.far.loadIr Config.user1 }

/-- A complete Hub Configuration Register word (spec 42_discovery.md R195). -/
def execHubCfg (version : BitVec 5) (nodeCount : BitVec 8) (mfg : BitVec 11) (m : BitVec 8) (s : State) :
    Host.Outcome State Fault Refusal :=
  .next (s.takeHubWord (joinFields version nodeCount mfg m) nodeCount m)

/-- A complete Node Info Register word without the tag (spec 42_discovery.md R197, R198). With `nodeId` `0x08`, an ill-formed term that
no word decodes to, no match is recorded: DEDUCED, notes/assumptions/21.md. -/
def execNodeInfo (version : BitVec 5) (nodeId : BitVec 8) (mfg : BitVec 11) (inst : BitVec 8) (s : State) :
    Host.Outcome State Fault Refusal :=
  .next (s.takeNodeWord (joinFields version nodeId mfg inst))

/-- A complete Node Info Register word with the Virtual JTAG tag (spec 42_discovery.md R197, R198). -/
def execNodeInfoVjtag (version : BitVec 5) (mfg : BitVec 11) (inst : BitVec 8) (s : State) :
    Host.Outcome State Fault Refusal :=
  .next (s.takeNodeWord (joinFields version Config.vjtagNodeId mfg inst)).recordMatch

/-- A routed VIR word shifted into the physical data register (spec 30_encoding.md R95, 20_memory.md R70 (c)). A length
other than 1 to 64 (R104), an address that does not fit `n` bits or a value that does not fit `m` makes the term ill formed, and it is
run by the same formula: DEDUCED, notes/assumptions/21.md. -/
def execRoutedVir (n m addr value : Nat) (s : State) : Host.Outcome State Fault Refusal :=
  .next { s with far := s.far.scanDr (n + m) (some (addr * 2 ^ m + value)) }

/-- The zero fill shifted into the physical data register (spec 30_encoding.md R96, 20_memory.md R74). -/
def execZeroFill (s : State) : Host.Outcome State Fault Refusal :=
  .next { s with far := s.far.scanDr Config.zeroFillBits (some 0) }

/-- A captured nibble taken into the accumulator (spec 30_encoding.md R97, 41_scan_interface.md R172). -/
def execNibble (x : BitVec 4) (s : State) : Host.Outcome State Fault Refusal := .next (s.takeNibble x.toNat)

/-- The response `success` (spec 30_encoding.md R112, R113). In `IDLE`, with no command to end, and in a
stage that does not end in success, it is sent all the same: DESIGN CHOICE, notes/assumptions/13.md. -/
def execRspSuccess (s : State) : Host.Outcome State Fault Refusal := .next s.succeed

/-- The response `no_vjtag_found` (spec 60_exceptions.md R252, R256). Where it does not arise (in
`IDLE`, R250; in a stage other than `S8_FINAL`, R252) the condition is taken all the same, with `ERR_STAGE` the stage: DESIGN CHOICE,
notes/assumptions/13.md. -/
def execRspNoVjtagFound (s : State) : Host.Outcome State Fault Refusal := .next (s.raise .noVjtagFound)

/-- The response `transport_error` (spec 60_exceptions.md R251, R254, R256). Where it does not arise (in
`IDLE`; in a stage that issues no request, R251; `DECODE_RANGE` in a stage other than `S8_FINAL`, R254): as for `no_vjtag_found`,
DESIGN CHOICE, notes/assumptions/13.md. -/
def execRspTransportError (token : ErrToken) (s : State) : Host.Outcome State Fault Refusal :=
  .next (s.raise (.transportError token))

/-- The response `not_discovered` (spec 60_exceptions.md R253, R256). Where it does not arise (in
`IDLE`; in a stage other than `R0_CHECK`, so anywhere in a `discover`, R253): as for `no_vjtag_found`, DESIGN CHOICE,
notes/assumptions/13.md. -/
def execRspNotDiscovered (s : State) : Host.Outcome State Fault Refusal := .next (s.raise .notDiscovered)

end Sys2Proof.Machine
end

