-- ==== Sys2Proof/Machine/Dispatch.lean ====
section
/-! DEFINITION. The meaning of every operation of the block: one arm per constructor of Instr, each one direct call. -/

namespace Sys2Proof.Machine

def exec (i : Instr) (s : State) : Host.Outcome State Fault Refusal :=
  match i with
  -- host commands
  | .discover tap => Sys2Proof.Machine.execDiscover tap s
  | .route virVal tap => Sys2Proof.Machine.execRoute virVal tap s
  | .cmdReserved00 => Sys2Proof.Machine.execCmdReserved00 s
  | .cmdReserved11 => Sys2Proof.Machine.execCmdReserved11 s
  -- physical JTAG instructions
  | .user0 irlen => Sys2Proof.Machine.execUser0 irlen s
  | .user1 irlen => Sys2Proof.Machine.execUser1 irlen s
  -- scan requests
  | .resetTap => Sys2Proof.Machine.execResetTap s
  | .shiftIr tap bitWidth value => Sys2Proof.Machine.execShiftIr tap bitWidth value s
  | .shiftDr bitWidth out cap => Sys2Proof.Machine.execShiftDr bitWidth out cap s
  | .execute => Sys2Proof.Machine.execExecute s
  -- codec functions
  | .pack buf off w value => Sys2Proof.Machine.execPack buf off w value s
  | .unpack buf off w => Sys2Proof.Machine.execUnpack buf off w s
  | .afw nodeCount => Sys2Proof.Machine.execAfw nodeCount s
  | .nibacc acc x => Sys2Proof.Machine.execNibacc acc x s
  | .asm32 x0 x1 x2 x3 x4 x5 x6 x7 => Sys2Proof.Machine.execAsm32 x0 x1 x2 x3 x4 x5 x6 x7 s
  | .decHub w => Sys2Proof.Machine.execDecHub w s
  | .decNode w => Sys2Proof.Machine.execDecNode w s
  | .mkvir addr n m virVal => Sys2Proof.Machine.execMkvir addr n m virVal s
  -- macro-operations
  | .selVir tap => Sys2Proof.Machine.execSelVir tap s
  | .selVdr tap => Sys2Proof.Machine.execSelVdr tap s
  | .nibscan => Sys2Proof.Machine.execNibscan s
  | .read32 => Sys2Proof.Machine.execRead32 s
  | .hubAddr0 => Sys2Proof.Machine.execHubAddr0 s
  -- register words, shifted words, captured words
  | .hubCfg version nodeCount mfg m => Sys2Proof.Machine.execHubCfg version nodeCount mfg m s
  | .nodeInfo version nodeId mfg inst => Sys2Proof.Machine.execNodeInfo version nodeId mfg inst s
  | .nodeInfoVjtag version mfg inst => Sys2Proof.Machine.execNodeInfoVjtag version mfg inst s
  | .routedVir n m addr value => Sys2Proof.Machine.execRoutedVir n m addr value s
  | .zeroFill => Sys2Proof.Machine.execZeroFill s
  | .nibble x => Sys2Proof.Machine.execNibble x s
  -- host responses
  | .rspSuccess => Sys2Proof.Machine.execRspSuccess s
  | .rspNoVjtagFound => Sys2Proof.Machine.execRspNoVjtagFound s
  | .rspTransportError token => Sys2Proof.Machine.execRspTransportError token s
  | .rspNotDiscovered => Sys2Proof.Machine.execRspNotDiscovered s

end Sys2Proof.Machine
end

