-- ==== Sys2Proof/Machine/Sequencer.lean ====
section
/-!
DEFINITION. The hard-wired sequence (spec 10_state.md R30, R34): what each stage does, one transaction a step (spec 00_scope.md
R9; notes/assumptions/1.md). A stage that issues a request takes two steps: the emission with the call of `execute_queue`
that follows every request (spec 41_scan_interface.md R166), and the answer ("it emits nothing while an `execute_queue` is
outstanding", spec 20_memory.md R76); every other stage takes one. The operations are those of
`exec`; what stands here besides is `STAGE`, the two loops, and the packing of the operands (spec 30_encoding.md R99).
-/

namespace Sys2Proof.Machine

/-- What the sequencer does with the next state an operation answers. -/
def onNext (o : Host.Outcome State Fault Refusal) (f : State → State) : Host.Outcome State Fault Refusal :=
  match o with
  | .next s => .next (f s)
  | .fault r => .fault r
  | .refused r => .refused r

/-- `STAGE <- st` (spec 00_scope.md R14). -/
def State.goto (s : State) (st : Stage) : State := { s with stage := st }

/-- The node loop of step 7: the next node is begun, or the loop is over (spec 42_discovery.md R197). -/
def State.nextNode (s : State) : State :=
  if s.nodeIdx.toNat < s.nodeCount.toNat then { s with nodeIdx := s.nodeIdx + 1, acc := 0, nibCnt := 0 }
  else s.goto .s8Final

/-- Step 6 ends and step 7 begins: `NODE_IDX <- 0` (spec 42_discovery.md R196, R197). -/
def State.startEnum (s : State) : State := { s with nodeIdx := 0, stage := .s7Enum }

/-- Step 9: `CMD_VIR <- trunc_32(DTMCS_TAG) ; STAGE <- RA_SEL_VIR` (spec 42_discovery.md R200). -/
def State.handoff (s : State) : State := { s with cmdVir := Config.dtmcsTag, stage := .raSelVir }

/-- One nibble scan of a register read, emitted, and `execute_queue` called (spec 41_scan_interface.md R171). -/
def issueNibble (s : State) : Host.Outcome State Fault Refusal :=
  onNext (exec (.shiftDr Config.nibbleBits none (some .capbuf)) s) State.await

/-- The IR shift of `SEL_VIR` or `SEL_VDR`, emitted, and `execute_queue` called (spec 41_scan_interface.md R169, R170). -/
def issueSelect (s : State) (opcode : Nat) : Host.Outcome State Fault Refusal :=
  onNext (exec (.shiftIr s.cmdTap s.cmdTap.irlen .irbuf) (s.packIr s.cmdTap opcode)) State.await

/-- A DR shift of the low `w` bits of `DRBUF`, emitted, and `execute_queue` called (spec 42_discovery.md R193, 43_routing.md R234). -/
def issueDr (s : State) (w : Nat) : Host.Outcome State Fault Refusal :=
  onNext (exec (.shiftDr w (some .drbuf) none) s) State.await

/-- A busy stage with no request outstanding. -/
def issue (s : State) : Host.Outcome State Fault Refusal :=
  match s.stage with
  | .idle => .next s
  | .s1Reset => onNext (exec .resetTap s) State.await
  | .s2SelVir => issueSelect s Config.user1
  | .s3HubAddr0 => issueDr s.packZeros Config.zeroFillBits
  | .s4SelVdr => issueSelect s Config.user0
  | .s5HubRead =>
    if s.nibCnt.toNat < Config.nibblesPerWord then issueNibble s
    else onNext (exec (decodeHub s.acc) s) (State.goto · .s6Derive)
  | .s6Derive => .next s.startEnum
  | .s7Enum =>
    if s.nibCnt.toNat < Config.nibblesPerWord then issueNibble s
    else if s.nodeIdx = 0 then .next s.nextNode
    else onNext (exec (decodeNode s.acc) s) State.nextNode
  | .s8Final =>
    if !s.found then exec .rspNoVjtagFound s
    else if Config.maxFieldBits < s.routedWidth then exec (.rspTransportError .decodeRange) s
    else .next s.publish
  | .s9Handoff => .next s.handoff
  | .r0Check => if !s.valid then exec .rspNotDiscovered s else .next (s.goto .raSelVir)
  | .raSelVir => issueSelect s Config.user1
  | .rbVirShift => if !s.valid then .fault .discoveryResultUnset else issueDr s.packRouted s.routedWidth
  | .rcSelVdr => issueSelect s Config.user0

/-- What a stage does when its request has completed. -/
def State.afterRequest (s : State) : State :=
  match s.stage with
  | .s1Reset => s.goto .s2SelVir
  | .s2SelVir => s.goto .s3HubAddr0
  | .s3HubAddr0 => s.goto .s4SelVdr
  | .s4SelVdr => s.startRead.goto .s5HubRead
  | .s5HubRead => s.takeNibble s.capturedNibble
  | .s7Enum => s.takeNibble s.capturedNibble
  | .raSelVir => s.goto .rbVirShift
  | .rbVirShift => s.goto .rcSelVdr
  | .rcSelVdr => s.succeed
  | .idle => s
  | .s6Derive => s
  | .s8Final => s
  | .s9Handoff => s
  | .r0Check => s

/-- `execute_queue` is answered: on success the stage goes on, on failure the command has ended
(spec 41_scan_interface.md R164, R167). -/
def complete (s : State) : Host.Outcome State Fault Refusal := .next (s.answered.andThen State.afterRequest)

/-- The command channel in `IDLE`: the oldest command is taken from it and runs; with none, the engine waits
(spec 30_encoding.md R111, 70_reset_and_hazards.md R292). -/
def takeCommand (s : State) : Host.Outcome State Fault Refusal :=
  match s.env.commands with
  | [] => .next s
  | c :: cs => exec (decodeCommand c.word c.tap) { s with env := { s.env with commands := cs } }

/-- One step of the engine with no reset asked for. -/
def advance (s : State) : Host.Outcome State Fault Refusal :=
  match s.stage with
  | .idle => takeCommand s
  | _ => if s.awaiting then complete s else issue s

end Sys2Proof.Machine
end

