-- ==== Sys2Proof/Machine/Step.lean ====
section
/-! DEFINITION. One step of the machine, and how one word of the opcode table is put where the next step runs it. -/

namespace Sys2Proof.Machine

/-- One step: an engine reset that is asked for, at any stage (spec 70_reset_and_hazards.md R293), or one transaction. -/
def step (s : State) : Host.Outcome State Fault Refusal :=
  if s.env.resetReq then .next s.engineReset else advance s

/-- `s` with one word of the opcode table where the next step runs it: a command at the head of the command channel; for the
words that the engine itself issues or receives, the stage in which it does so. notes/assumptions/15.md. -/
def State.withFetchWord (s : State) (nbits w : Nat) : State :=
  let e : Env := { s.env with resetReq := false }
  let ready : State := { s with env := e, awaiting := false, cmdKind := .discover, cmdTap := exampleTap }
  let completing (q : Request) (answers : List Answer) (captures : List Nat) (st : Stage) : State :=
    { ready with
      stage := st
      awaiting := true
      queue := [q]
      env := { e with answers := answers ++ e.answers, captures := captures ++ e.captures } }
  if nbits = 40 then
    { s with stage := .idle, env := { e with commands := ⟨BitVec.ofNat 34 w, exampleTap⟩ :: e.commands } }
  else if nbits = 8 then
    if w = 0 then { ready with stage := .s1Reset }
    else if w = 1 then { ready with stage := .s2SelVir }
    else if w = 2 then { ready with stage := .s3HubAddr0 }
    else if w = 3 then completing .resetTap [.success] [] .s1Reset
    else completing (.shiftDr 4 none (some .capbuf)) [.success] [w] .s5HubRead
  else if nbits = 16 then completing (.shiftIr exampleTap exampleTap.irlen w) [.success] [] .s2SelVir
  else if nbits = 32 then
    if w / 2 ^ 19 % 2 ^ 8 = 8 then
      { ready with stage := .s7Enum, nibCnt := 8, nodeIdx := 1, acc := BitVec.ofNat 32 w }
    else { ready with stage := .s5HubRead, nibCnt := 8, acc := BitVec.ofNat 32 w }
  else if nbits = 64 then completing (.shiftDr 64 (some w) none) [.success] [] .s3HubAddr0
  else s

end Sys2Proof.Machine
end

