-- ==== Sys2Proof/Safety.lean ====
section
/-!
DEFINITION. What counts as a safe run, in the terms claims use: the invariant of the sequencer, and the shapes of the scan
traffic of a whole command (spec 42_discovery.md R204, 43_routing.md R237).
-/

namespace Sys2Proof.Machine

/-- The stages that issue a request (spec 60_exceptions.md R251). -/
def Stage.requests : Stage → Bool
  | .s1Reset => true
  | .s2SelVir => true
  | .s3HubAddr0 => true
  | .s4SelVdr => true
  | .s5HubRead => true
  | .s7Enum => true
  | .raSelVir => true
  | .rbVirShift => true
  | .rcSelVdr => true
  | _ => false

/-- The stages of a register read, in which nibbles are scanned. -/
def Stage.reads : Stage → Bool
  | .s5HubRead => true
  | .s7Enum => true
  | _ => false

/-- Steps 1 to 5 of discovery: no register of the run has been decoded yet. -/
def Stage.beforeDecode : Stage → Bool
  | .s1Reset => true
  | .s2SelVir => true
  | .s3HubAddr0 => true
  | .s4SelVdr => true
  | .s5HubRead => true
  | _ => false

/-- Steps 6 to 8 of discovery: decoded and not yet published. -/
def Stage.beforePublish : Stage → Bool
  | .s6Derive => true
  | .s7Enum => true
  | .s8Final => true
  | _ => false

/-- Step 9 and the steps of the routed scan: a published result is used. -/
def Stage.usesResult (st : Stage) : Bool := st.isRouted || st == .s9Handoff

/-- The invariant of the sequencer: what holds after reset and after every step. -/
structure State.Coherent (s : State) : Prop where
  /-- `DRBUF` and `CAPBUF` keep their sizes (spec 10_state.md R38). -/
  memory : s.mem.wf = true
  /-- `NIB_CNT` is 0 to 8 (spec 10_state.md R31). -/
  nibbles : s.nibCnt.toNat ≤ 8
  /-- A command in progress has a legal TAP handle (spec 41_scan_interface.md R169). -/
  tap : s.stage ≠ .idle → 4 ≤ s.cmdTap.irlen
  /-- Only a stage that issues requests waits for one, and in a register read before its eighth nibble. -/
  waiting : s.awaiting = true → s.stage.requests = true ∧ (s.stage.reads = true → s.nibCnt.toNat < 8)
  /-- A published result is in range (spec 10_state.md R23, 42_discovery.md R208). -/
  published : s.valid = true →
    1 ≤ s.vjtagAddr.toNat ∧ s.vjtagAddr.toNat ≤ s.nodeCount.toNat ∧ 1 ≤ s.routedWidth ∧ s.routedWidth ≤ 64
  /-- Step 9 and the routed scan run on a published result. -/
  routing : s.stage.usesResult = true → s.valid = true
  /-- Nothing is published before step 9 of a discovery run (spec 10_state.md R24). -/
  unpublished : s.stage.beforeDecode = true ∨ s.stage.beforePublish = true → s.valid = false
  /-- Steps 1 to 9 belong to `DISCOVER` (spec 10_state.md R37). -/
  discovering : s.stage.beforeDecode = true ∨ s.stage.beforePublish = true ∨ s.stage = .s9Handoff → s.cmdKind = .discover
  /-- The check belongs to `ROUTE`. -/
  checking : s.stage = .r0Check → s.cmdKind = .route
  /-- Nothing is found before the enumeration (spec 10_state.md R36). -/
  unfound : s.stage.beforeDecode = true ∨ s.stage = .s6Derive → s.found = false
  /-- `ACC` holds the hub's word when step 6 is entered. -/
  derived : s.stage = .s6Derive → s.nibCnt.toNat = 8
  /-- The enumeration stays within `NODE_COUNT`, and a match recorded so far is one of the nodes read (spec 42_discovery.md R197, R198). -/
  enumerating : s.stage = .s7Enum ∨ s.stage = .s8Final →
    s.nodeIdx.toNat ≤ s.nodeCount.toNat ∧ (s.found = true → 1 ≤ s.vjtagAddr.toNat ∧ s.vjtagAddr.toNat ≤ s.nodeIdx.toNat)
  /-- While a node's word is read, `NODE_IDX` is its 1-based address (spec 10_state.md R32). -/
  reading : s.stage = .s7Enum → s.nibCnt.toNat < 8 → 1 ≤ s.nodeIdx.toNat
  /-- `ERR_RAW` holds a word of this run exactly from step 6 on (spec 10_state.md R42). -/
  rawUnset : s.stage.beforeDecode = true ∨ s.stage = .r0Check → s.errRawValid = false
  rawSet : s.stage.beforePublish = true ∨ s.stage = .s9Handoff → s.errRawValid = true
  /-- In the routed scan `ERR_RAW` holds a word exactly inside a discovery run (spec 10_state.md R42). -/
  rawRouted : s.stage.isRouted = true → s.errRawValid = (s.cmdKind == .discover)

/-- The 8 nibbles of a word in the order the hub presents them, first nibble lowest (spec 30_encoding.md R97). -/
def nibblesOf (w : BitVec 32) : List Nat := (List.range 8).map fun k => w.toNat / 16 ^ k % 16

/-- The nibble stream of a list of register words (spec 10_state.md R46). -/
def streamOf (ws : List (BitVec 32)) : List Nat := ws.flatMap nibblesOf

/-- The `node_id` of a Node Info Register (spec 30_encoding.md R94). -/
def nodeIdOf (w : BitVec 32) : Nat := w.toNat / 2 ^ 19 % 2 ^ 8

/-- The `node_count` of a Hub Configuration Register (spec 30_encoding.md R93). -/
def nodeCountOf (w : BitVec 32) : Nat := w.toNat / 2 ^ 19 % 2 ^ 8

/-- The `m` of a Hub Configuration Register (spec 30_encoding.md R93). -/
def mWidthOf (w : BitVec 32) : Nat := w.toNat % 2 ^ 8

/-- The IR shift of a select, `IRLEN` bits (spec 30_encoding.md R92). -/
def selectRequest (tap : Tap) (opcode : Nat) : Request := .shiftIr tap tap.irlen opcode

/-- The capture-only scan of one nibble (spec 41_scan_interface.md R171). -/
def nibbleRequest : Request := .shiftDr 4 none (some .capbuf)

/-- The requests of steps 1 to 7 with `count` nodes, in order (spec 42_discovery.md R204). -/
def enumerationRequests (tap : Tap) (count : Nat) : List Request :=
  [.resetTap, selectRequest tap Config.user1, .shiftDr 64 (some 0) none, selectRequest tap Config.user0] ++
    List.replicate (8 * (1 + count)) nibbleRequest

/-- The requests of a routed scan, in order (spec 43_routing.md R237). -/
def routedRequests (tap : Tap) (width word : Nat) : List Request :=
  [selectRequest tap Config.user1, .shiftDr width (some word) none, selectRequest tap Config.user0]

/-- The trace of requests: each followed by its own `execute_queue` (spec 41_scan_interface.md R166). -/
def servedTrace (rs : List Request) : List ScanEvent := rs.flatMap fun r => [.request r, .execute]

end Sys2Proof.Machine
end

