-- ==== Sys2Proof/Certificates/Slice0/Obligations.lean ====
section
/-!
DEFINITION. The statements for the provers. Each docstring names the rule of spec/ it formalises; a statement whose next state is
written as the old state with some fields replaced says by that what the operation leaves unchanged.
-/

open Sys2Proof Sys2Proof.Machine

/-! ### The Bit-Field Codec -/

/-- R130. `PACK` inside the contract: the field's bits become the value's low bits, every other bit of the buffer, every other
buffer and everything else keeps its value; outside the contract the call has no meaning and is refused. -/
def Obligations.PackWritesItsFieldOnly : Prop :=
  ∀ (b : BufId) (off w : Nat) (v : BitVec 64) (s : State),
    (w ≤ 64 → off + w ≤ 8 * (s.mem.get b).length →
      ∃ m : Memory,
        Sys2Proof.Machine.exec (.pack b off w v) s = .next { s with mem := m } ∧
        (m.get b).length = (s.mem.get b).length ∧
        (∀ j, Buffer.bit (m.get b) j =
          if off ≤ j ∧ j < off + w then v.getLsbD (j - off) else Buffer.bit (s.mem.get b) j) ∧
        ∀ b', b' ≠ b → m.get b' = s.mem.get b') ∧
    (64 < w ∨ 8 * (s.mem.get b).length < off + w →
      ∃ r : Refusal, Sys2Proof.Machine.exec (.pack b off w v) s = .refused r)

/-- R131. `UNPACK` inside the contract returns the number whose bit `k` is the field's bit `k`, and changes nothing else; outside
the contract the call has no meaning and is refused. -/
def Obligations.UnpackReadsItsField : Prop :=
  ∀ (b : BufId) (off w : Nat) (s : State),
    (w ≤ 64 → off + w ≤ 8 * (s.mem.get b).length →
      ∃ v : Nat,
        Sys2Proof.Machine.exec (.unpack b off w) s = .next { s with out := { s.out with ret := .nat v } } ∧
        v < 2 ^ w ∧
        ∀ k, k < w → v.testBit k = Buffer.bit (s.mem.get b) (off + k)) ∧
    (64 < w ∨ 8 * (s.mem.get b).length < off + w →
      ∃ r : Refusal, Sys2Proof.Machine.exec (.unpack b off w) s = .refused r)

/-- R139. After a `PACK`, `UNPACK` of the same field returns the value modulo `2^w`, and `UNPACK` of a field that does not overlap
returns what it returned before. -/
def Obligations.UnpackAfterPackRoundTrips : Prop :=
  ∀ (b : BufId) (off w : Nat) (v : BitVec 64) (s : State),
    w ≤ 64 → off + w ≤ 8 * (s.mem.get b).length →
    ∃ t : State,
      Sys2Proof.Machine.exec (.pack b off w v) s = .next t ∧
      Sys2Proof.Machine.exec (.unpack b off w) t = .next { t with out := { t.out with ret := .nat (v.toNat % 2 ^ w) } } ∧
      ∀ off' w', w' ≤ 64 → off' + w' ≤ 8 * (s.mem.get b).length → (off' + w' ≤ off ∨ off + w ≤ off') →
        ∃ x : Nat,
          Sys2Proof.Machine.exec (.unpack b off' w') s = .next { s with out := { s.out with ret := .nat x } } ∧
          Sys2Proof.Machine.exec (.unpack b off' w') t = .next { t with out := { t.out with ret := .nat x } }

/-- R66 and R69. A codec call wider than 64 bits, or beyond the buffer's capacity, is refused: never clipped, wrapped or extended.
That a shift of more bits than a buffer it names holds is refused too is the model's deduction (notes/assumptions/20.md). -/
def Obligations.CodecRefusesOutsideTheContract : Prop :=
  ∀ (b : BufId) (off w : Nat) (v : BitVec 64) (s : State),
    (64 < w →
      Sys2Proof.Machine.exec (.pack b off w v) s = .refused .codecWidth ∧
      Sys2Proof.Machine.exec (.unpack b off w) s = .refused .codecWidth) ∧
    (w ≤ 64 → 8 * (s.mem.get b).length < off + w →
      Sys2Proof.Machine.exec (.pack b off w v) s = .refused .bufferCapacity ∧
      Sys2Proof.Machine.exec (.unpack b off w) s = .refused .bufferCapacity) ∧
    (∀ tap : Tap, 4 ≤ tap.irlen → 8 * (s.mem.get b).length < w →
      Sys2Proof.Machine.exec (.shiftIr tap w b) s = .refused .bufferCapacity) ∧
    ∀ out cap : Option BufId, out = some b ∨ cap = some b → 8 * (s.mem.get b).length < w →
      Sys2Proof.Machine.exec (.shiftDr w out cap) s = .refused .bufferCapacity

/-- R132. `AFW` returns the least `n` with `2^n ≥ c + 1`, and changes nothing else. -/
def Obligations.AfwReturnsTheLeastWidth : Prop :=
  ∀ (c : Nat) (s : State), ∃ n : Nat,
    Sys2Proof.Machine.exec (.afw c) s = .next { s with out := { s.out with ret := .nat n } } ∧
    c + 1 ≤ 2 ^ n ∧ ∀ k, c + 1 ≤ 2 ^ k → n ≤ k

/-- R141. `AFW` over the whole range of an 8-bit `node_count`: 0 gives 0, and `2^k .. 2^(k+1) - 1` gives `k + 1`. -/
def Obligations.AfwTableOfEightBitCounts : Prop :=
  ∀ s : State,
    Sys2Proof.Machine.exec (.afw 0) s = .next { s with out := { s.out with ret := .nat 0 } } ∧
    ∀ c k : Nat, k < 8 → 2 ^ k ≤ c → c < 2 ^ (k + 1) →
      Sys2Proof.Machine.exec (.afw c) s = .next { s with out := { s.out with ret := .nat (k + 1) } }

/-- R133. `NIBACC` returns the accumulator shifted right by 4 with the low four bits of the nibble in bits `[31:28]`. -/
def Obligations.NibaccShiftsTheNibbleInAtTheTop : Prop :=
  ∀ (acc : BitVec 32) (x : Nat) (s : State), ∃ r : BitVec 32,
    Sys2Proof.Machine.exec (.nibacc acc x) s = .next { s with out := { s.out with ret := .word r } } ∧
    ∀ k, k < 32 → r.getLsbD k = if k < 28 then acc.getLsbD (k + 4) else x.testBit (k - 28)

/-- R134. `ASM32` returns the sum of the nibbles' low four bits weighted by `16^k` in capture order: the first is lowest. -/
def Obligations.Asm32PutsTheFirstNibbleLowest : Prop :=
  ∀ (x0 x1 x2 x3 x4 x5 x6 x7 : Nat) (s : State), ∃ r : BitVec 32,
    Sys2Proof.Machine.exec (.asm32 x0 x1 x2 x3 x4 x5 x6 x7) s = .next { s with out := { s.out with ret := .word r } } ∧
    r.toNat = x0 % 16 + x1 % 16 * 16 + x2 % 16 * 16 ^ 2 + x3 % 16 * 16 ^ 3 + x4 % 16 * 16 ^ 4 + x5 % 16 * 16 ^ 5 +
      x6 % 16 * 16 ^ 6 + x7 % 16 * 16 ^ 7

/-- R135. `DEC_HUB` returns the fields `[31:27]`, `[26:19]`, `[18:8]`, `[7:0]`, the same as `unpack` reads from the word packed into
four bytes. -/
def Obligations.DecHubReturnsTheFourFields : Prop :=
  ∀ (w : BitVec 32) (s : State), ∃ f : HubFields,
    Sys2Proof.Machine.exec (.decHub w) s = .next { s with out := { s.out with ret := .hub f } } ∧
    f.version.toNat = w.toNat / 2 ^ 27 ∧ f.nodeCount.toNat = w.toNat / 2 ^ 19 % 2 ^ 8 ∧
    f.mfg.toNat = w.toNat / 2 ^ 8 % 2 ^ 11 ∧ f.m.toNat = w.toNat % 2 ^ 8 ∧
    ∀ b : Buffer, b.length = 4 →
      Buffer.unpack (Buffer.pack b 0 w.toNat 32) 27 5 = f.version.toNat ∧
      Buffer.unpack (Buffer.pack b 0 w.toNat 32) 19 8 = f.nodeCount.toNat ∧
      Buffer.unpack (Buffer.pack b 0 w.toNat 32) 8 11 = f.mfg.toNat ∧
      Buffer.unpack (Buffer.pack b 0 w.toNat 32) 0 8 = f.m.toNat

/-- R136. `DEC_NODE` returns the fields `[31:27]`, `[26:19]`, `[18:8]`, `[7:0]`. -/
def Obligations.DecNodeReturnsTheFourFields : Prop :=
  ∀ (w : BitVec 32) (s : State), ∃ f : NodeFields,
    Sys2Proof.Machine.exec (.decNode w) s = .next { s with out := { s.out with ret := .node f } } ∧
    f.version.toNat = w.toNat / 2 ^ 27 ∧ f.nodeId.toNat = w.toNat / 2 ^ 19 % 2 ^ 8 ∧
    f.mfg.toNat = w.toNat / 2 ^ 8 % 2 ^ 11 ∧ f.inst.toNat = w.toNat % 2 ^ 8

/-- R137. `MKVIR` returns the low `n + m` bits of `(addr << m) | vir_val`; with an address below `2^n` and a value below `2^m` the
address stands in `[n+m-1:m]` and the value in `[m-1:0]`.
It holds beyond 64 bits and for address 0 too, outside R137's operands, as the model's deduction (notes/assumptions/21.md). -/
def Obligations.MkvirComposesTheRoutedWord : Prop :=
  ∀ (addr : BitVec 8) (n m : Nat) (v : BitVec 32) (s : State), ∃ x : Nat,
    Sys2Proof.Machine.exec (.mkvir addr n m v) s = .next { s with out := { s.out with ret := .nat x } } ∧
    x < 2 ^ (n + m) ∧
    (∀ k, k < n + m → x.testBit k = ((decide (m ≤ k) && addr.getLsbD (k - m)) || v.getLsbD k)) ∧
    (addr.toNat < 2 ^ n → v.toNat < 2 ^ m → x / 2 ^ m = addr.toNat ∧ x % 2 ^ m = v.toNat)

/-! ### Scan requests and macro-operations -/

/-- R160 (the first three operations), R161 to R163. A request is appended to the queue and nothing is performed: an IR shift
carries the low bits of its buffer, a DR shift those of its out-buffer where it has one.
An `execute_queue` may be outstanding already, where the spec has the engine emit nothing (20_memory.md R76 (b)): that the
instruction runs all the same is the model's choice (notes/assumptions/27.md).
It holds for an ill-formed width too, as the model's deduction (notes/assumptions/21.md). -/
def Obligations.RequestsAreQueuedAndNothingElseHappens : Prop :=
  ∀ s : State,
    (Sys2Proof.Machine.exec .resetTap s =
      .next { s with queue := s.queue ++ [.resetTap], out := { s.out with trace := s.out.trace ++ [.request .resetTap] } }) ∧
    (∀ (tap : Tap) (w : Nat) (b : BufId), 4 ≤ tap.irlen → w ≤ 8 * (s.mem.get b).length →
      ∃ v : Nat,
        Sys2Proof.Machine.exec (.shiftIr tap w b) s =
          .next { s with
            queue := s.queue ++ [.shiftIr tap w v]
            out := { s.out with trace := s.out.trace ++ [.request (.shiftIr tap w v)] } } ∧
        v < 2 ^ w ∧ ∀ k, k < w → v.testBit k = Buffer.bit (s.mem.get b) k) ∧
    ∀ (w : Nat) (out cap : Option BufId),
      (∀ b, out = some b → w ≤ 8 * (s.mem.get b).length) → (∀ b, cap = some b → w ≤ 8 * (s.mem.get b).length) →
      ∃ v : Option Nat,
        Sys2Proof.Machine.exec (.shiftDr w out cap) s =
          .next { s with
            queue := s.queue ++ [.shiftDr w v cap]
            out := { s.out with trace := s.out.trace ++ [.request (.shiftDr w v cap)] } } ∧
        (out = none → v = none) ∧
        ∀ b, out = some b → ∃ x : Nat, v = some x ∧ x < 2 ^ w ∧ ∀ k, k < w → x.testBit k = Buffer.bit (s.mem.get b) k

/-- R164, the answer `success`: the queue is empty, a scan that captures has filled the low bits of its buffer, every other bit of
memory and every register is unchanged; the engine no longer waits. The call stands in the trace once: a call already outstanding
is not entered again. The bits captured are those on the completion channel, or, where none stand there, a free value that nothing
constrains (notes/assumptions/4.md). That the bits of the buffer above the scan's width are kept is the model's choice
(notes/assumptions/26.md), and so is that a call with an empty queue is answered (notes/assumptions/27.md).
The far end is the model's own record (notes/assumptions/5.md). -/
def Obligations.ExecuteSuccessFillsTheCaptureBuffers : Prop :=
  ∀ s : State, s.env.nextAnswer = .success →
    ∃ (e : Env) (m : Memory),
      Sys2Proof.Machine.exec .execute s =
        .next { s with
          awaiting := false
          queue := []
          far := s.queue.foldl FarEnd.perform s.far
          env := e
          mem := m
          out := { s.out with trace := if s.awaiting then s.out.trace else s.out.trace ++ [.execute] } } ∧
      e.commands = s.env.commands ∧ e.resetReq = s.env.resetReq ∧
      (∀ b, (∀ w out, Request.shiftDr w out (some b) ∉ s.queue) → m.get b = s.mem.get b) ∧
      (∀ w out b x xs a as, s.queue = [.shiftDr w out (some b)] → w ≤ 8 * (s.mem.get b).length →
        s.env.captures = x :: xs → s.env.answers = a :: as →
        e.captures = xs ∧ e.answers = as ∧
        ∀ j, Buffer.bit (m.get b) j = if j < w then x.testBit j else Buffer.bit (s.mem.get b) j) ∧
      ∀ w out b, s.queue = [.shiftDr w out (some b)] → w ≤ 8 * (s.mem.get b).length →
        e = s.env.dropAnswer.dropCapture ∧
        ∀ j, Buffer.bit (m.get b) j =
          if j < w then s.env.dropAnswer.nextCapture.testBit j else Buffer.bit (s.mem.get b) j

/-- R167 with R251 and R256: if `execute_queue` answers `transport_error(tok)`, the command ends at once with `TransportError`, its
token unchanged; no request is emitted; `VALID` is withdrawn exactly in the routed scan of a `discover` (R201, R236). The statement
holds in `IDLE` too, where R250 has no command to end, and in stages that issue no request, where R251 has no such failure: the entry
there is the model's choice (notes/assumptions/22.md), and so is that a call with an empty queue, which the engine never makes, is
answered (notes/assumptions/27.md). What it says of the queue, the far end and the capture buffers is the model's
(notes/assumptions/16.md, 5.md, 17.md). -/
def Obligations.ExecuteFailureRaisesTransportError : Prop :=
  ∀ (s : State) (tok : Token), s.env.nextAnswer = .transportError tok →
    ∃ (e : Env) (m : Memory),
      Sys2Proof.Machine.exec .execute s =
        .next { s with
          valid := s.valid && !(s.cmdKind == .discover &&
            (s.stage == .raSelVir || s.stage == .rbVirShift || s.stage == .rcSelVdr))
          stage := .idle
          awaiting := false
          result := .transportError
          responded := true
          errStage := s.stage
          errToken := some (.chain tok)
          queue := []
          far := .unknown
          env := e
          mem := m
          out := { s.out with
            responses := s.out.responses ++ [.transportError]
            trace := if s.awaiting then s.out.trace else s.out.trace ++ [.execute] } } ∧
      e.commands = s.env.commands ∧ e.captures = s.env.captures ∧ e.resetReq = s.env.resetReq ∧
      ∀ b, (∀ w out, Request.shiftDr w out (some b) ∉ s.queue) → m.get b = s.mem.get b

/-- R169 and R170 on success: exactly one IR shift of `IRLEN` bits, holding `0x0E` (`SEL_VIR`) or `0x0C` (`SEL_VDR`), then one
`execute_queue`; `IRBUF` has the `IRLEN` bits of R38, which are the shifted value (R162); the opcode is in the physical IR; no register
of the engine is written. That a select gives `IRBUF` the size of the handle it names, whatever handle is latched, is the model's choice
(notes/assumptions/10.md); the physical IR is the model's own record of the far end (notes/assumptions/5.md).
An `execute_queue` may be outstanding already, where the spec has the engine emit nothing (20_memory.md R76 (b)): that the
instruction runs all the same is the model's choice (notes/assumptions/27.md). -/
def Obligations.SelectsShiftTheirOpcode : Prop :=
  ∀ (s : State) (tap : Tap), 4 ≤ tap.irlen → s.queue = [] → s.env.nextAnswer = .success →
    ∀ (i : Instr) (op : Nat), (i = .selVir tap ∧ op = 0x0E) ∨ (i = .selVdr tap ∧ op = 0x0C) →
      ∃ t : State,
        Sys2Proof.Machine.exec i s = .next t ∧
        t = { s with
          awaiting := false
          mem := { s.mem with irbuf := t.mem.irbuf }
          far := t.far
          env := t.env
          out := { s.out with
            trace := s.out.trace ++ [.request (.shiftIr tap tap.irlen op), .execute] } } ∧
        t.mem.irbuf.length = (tap.irlen + 7) / 8 ∧ Buffer.unpack t.mem.irbuf 0 tap.irlen = op ∧
        t.far.ir = some op ∧
        t.env.commands = s.env.commands ∧ t.env.captures = s.env.captures ∧ t.env.resetReq = s.env.resetReq

/-- R169 and U18: a TAP handle with `IRLEN < 4` is refused, with no request. -/
def Obligations.NarrowTapHandlesAreRefused : Prop :=
  ∀ (s : State) (tap : Tap) (v : BitVec 32) (w : Nat) (b : BufId), tap.irlen < 4 →
    Sys2Proof.Machine.exec (.selVir tap) s = .refused .tapHandleTooNarrow ∧
    Sys2Proof.Machine.exec (.selVdr tap) s = .refused .tapHandleTooNarrow ∧
    Sys2Proof.Machine.exec (.shiftIr tap w b) s = .refused .tapHandleTooNarrow ∧
    (s.stage = .idle →
      Sys2Proof.Machine.exec (.discover tap) s = .refused .tapHandleTooNarrow ∧
      Sys2Proof.Machine.exec (.route v tap) s = .refused .tapHandleTooNarrow)

/-- R171 on success: one capture-only scan of 4 bits, then one `execute_queue`; the four captured bits are returned and stand in
`CAPBUF`; no register is written. That the upper four bits of `CAPBUF` are kept is the model's choice (notes/assumptions/26.md).
An `execute_queue` may be outstanding already, where the spec has the engine emit nothing (20_memory.md R76 (b)): that the
instruction runs all the same is the model's choice (notes/assumptions/27.md). -/
def Obligations.NibscanReturnsTheCapturedNibble : Prop :=
  ∀ (s : State) (x : Nat) (xs : List Nat) (as : List Answer),
    s.queue = [] → s.mem.wf = true → s.env.answers = .success :: as → s.env.captures = x :: xs →
    ∃ t : State,
      Sys2Proof.Machine.exec .nibscan s = .next t ∧
      t = { s with
        awaiting := false
        mem := { s.mem with capbuf := t.mem.capbuf }
        far := t.far
        env := { s.env with answers := as, captures := xs }
        out := { s.out with
          trace := s.out.trace ++ [.request (.shiftDr 4 none (some .capbuf)), .execute]
          ret := .nat (x % 16) } } ∧
      ∀ j, Buffer.bit t.mem.capbuf j = if j < 4 then x.testBit j else Buffer.bit s.mem.capbuf j

/-- R172 and R134 on success: exactly 8 nibble scans, each followed by its own `execute_queue`; `ACC` is the word with the first
nibble lowest, `NIB_CNT` is 8, the word is returned, and nothing else of the engine but `CAPBUF` is written.
An `execute_queue` may be outstanding already, where the spec has the engine emit nothing (20_memory.md R76 (b)): that the
instruction runs all the same is the model's choice (notes/assumptions/27.md). -/
def Obligations.Read32AssemblesEightNibbles : Prop :=
  ∀ (s : State) (x0 x1 x2 x3 x4 x5 x6 x7 : Nat) (xs : List Nat) (as : List Answer),
    s.queue = [] → s.mem.wf = true → s.env.answers = List.replicate 8 .success ++ as →
    s.env.captures = x0 :: x1 :: x2 :: x3 :: x4 :: x5 :: x6 :: x7 :: xs →
    ∃ t : State,
      Sys2Proof.Machine.exec .read32 s = .next t ∧
      t = { s with
        awaiting := false
        acc := t.acc
        nibCnt := 8
        mem := { s.mem with capbuf := t.mem.capbuf }
        far := t.far
        env := { s.env with answers := as, captures := xs }
        out := { s.out with
          trace := s.out.trace ++ servedTrace (List.replicate 8 nibbleRequest)
          ret := .word t.acc } } ∧
      t.acc.toNat = x0 % 16 + x1 % 16 * 16 + x2 % 16 * 16 ^ 2 + x3 % 16 * 16 ^ 3 + x4 % 16 * 16 ^ 4 + x5 % 16 * 16 ^ 5 +
        x6 % 16 * 16 ^ 6 + x7 % 16 * 16 ^ 7

/-- R172 on failure: when the scan of nibble `k` (0-based) fails, exactly `k + 1` requests and `k + 1` `execute_queue` calls have been
made, the command has ended with `TransportError`, and no word is returned; the Discovery Result's fields, the latches and `ERR_RAW`
are kept, and `VALID` is kept but for a failure in the routed scan of a `discover` (R201). The statement holds in `IDLE` too, where
R250 has no command to end, and in stages that do not issue the request (R251): the entry there is the model's choice
(notes/assumptions/22.md).
An `execute_queue` may be outstanding already, where the spec has the engine emit nothing (20_memory.md R76 (b)): that the
instruction runs all the same is the model's choice (notes/assumptions/27.md). -/
def Obligations.Read32StopsAtTheFailingNibble : Prop :=
  ∀ (s : State) (k : Nat) (tok : Token) (as : List Answer),
    k < 8 → s.queue = [] → s.mem.wf = true →
    s.env.answers = List.replicate k .success ++ .transportError tok :: as →
    ∃ t : State,
      Sys2Proof.Machine.exec .read32 s = .next t ∧
      t.out.trace = s.out.trace ++ servedTrace (List.replicate (k + 1) nibbleRequest) ∧
      t.valid = (s.valid && !(s.cmdKind == .discover &&
        (s.stage == .raSelVir || s.stage == .rbVirShift || s.stage == .rcSelVdr))) ∧
      t.out.ret = s.out.ret ∧ t.out.responses = s.out.responses ++ [.transportError] ∧
      t.stage = .idle ∧ t.result = .transportError ∧ t.errStage = s.stage ∧ t.errToken = some (.chain tok) ∧
      t.errRaw = s.errRaw ∧ t.errRawValid = s.errRawValid ∧ t.nodeCount = s.nodeCount ∧ t.mWidth = s.mWidth ∧
      t.vjtagAddr = s.vjtagAddr ∧ t.found = s.found ∧ t.cmdKind = s.cmdKind ∧ t.cmdTap = s.cmdTap ∧ t.cmdVir = s.cmdVir ∧
      t.nodeIdx = s.nodeIdx ∧ t.env.answers = as ∧ t.env.commands = s.env.commands

/-- R193, the macro `HUB_ADDR0` on success: `DRBUF` is 64 zero bits, exactly one DR shift of 64 zero bits without capture, then one
`execute_queue`; no register is written.
What it says of the far end is the model's own record (notes/assumptions/5.md).
An `execute_queue` may be outstanding already, where the spec has the engine emit nothing (20_memory.md R76 (b)): that the
instruction runs all the same is the model's choice (notes/assumptions/27.md). -/
def Obligations.HubAddr0ShiftsSixtyFourZeros : Prop :=
  ∀ s : State, s.queue = [] → s.env.nextAnswer = .success →
    ∃ t : State,
      Sys2Proof.Machine.exec .hubAddr0 s = .next t ∧
      t = { s with
        awaiting := false
        mem := { s.mem with drbuf := [0, 0, 0, 0, 0, 0, 0, 0] }
        far := t.far
        env := t.env
        out := { s.out with trace := s.out.trace ++ [.request (.shiftDr 64 (some 0) none), .execute] } } ∧
      (s.far.ir = some 0x0E → t.far = ⟨some 0x0E, some ⟨64, 0⟩, some 0⟩) ∧
      t.env.commands = s.env.commands ∧ t.env.captures = s.env.captures ∧ t.env.resetReq = s.env.resetReq

/-- R169 to R171 and R193 on failure, with R167: one request, one `execute_queue`, then the command has ended with
`TransportError`; nothing more is emitted and the Discovery Result's fields are kept, `VALID` but for a failure in the routed scan of
a `discover` (R201). That the queue is empty afterwards is the model's deduction (notes/assumptions/16.md); the statement holds in
`IDLE` too, where R250 has no command to end, and in stages that do not issue the request (R251): the entry there is the model's choice
(notes/assumptions/22.md).
An `execute_queue` may be outstanding already, where the spec has the engine emit nothing (20_memory.md R76 (b)): that the
instruction runs all the same is the model's choice (notes/assumptions/27.md). -/
def Obligations.MacrosStopAtAFailingRequest : Prop :=
  ∀ (s : State) (tap : Tap) (tok : Token), 4 ≤ tap.irlen → s.queue = [] →
    s.env.nextAnswer = .transportError tok →
    ∀ (i : Instr) (r : Request),
      (i = .selVir tap ∧ r = .shiftIr tap tap.irlen 0x0E) ∨ (i = .selVdr tap ∧ r = .shiftIr tap tap.irlen 0x0C) ∨
      (i = .nibscan ∧ r = .shiftDr 4 none (some .capbuf)) ∨ (i = .hubAddr0 ∧ r = .shiftDr 64 (some 0) none) →
      ∃ t : State,
        Sys2Proof.Machine.exec i s = .next t ∧
        t.out.trace = s.out.trace ++ [.request r, .execute] ∧
        t.valid = (s.valid && !(s.cmdKind == .discover &&
          (s.stage == .raSelVir || s.stage == .rbVirShift || s.stage == .rcSelVdr))) ∧
        t.out.responses = s.out.responses ++ [.transportError] ∧ t.out.ret = s.out.ret ∧
        t.stage = .idle ∧ t.awaiting = false ∧ t.queue = [] ∧ t.result = .transportError ∧
        t.errStage = s.stage ∧ t.errToken = some (.chain tok) ∧
        t.nodeCount = s.nodeCount ∧ t.mWidth = s.mWidth ∧ t.vjtagAddr = s.vjtagAddr ∧ t.acc = s.acc ∧
        t.nibCnt = s.nibCnt ∧ t.errRaw = s.errRaw ∧ t.errRawValid = s.errRawValid

/-! ### The words that travel -/

/-- R92 with R45: `USER1` and `USER0` put `0x0E` and `0x0C` into the physical IR and change nothing of the engine nor of the hub's
virtual-IR selection. The recorded far end is the model's own record (notes/assumptions/5.md).
It holds for an ill-formed `irlen` below 4 too, as the model's deduction (notes/assumptions/21.md). -/
def Obligations.JtagInstructionsLoadThePhysicalIr : Prop :=
  ∀ (irlen : Nat) (s : State) (i : Instr) (op : Nat),
    (i = .user1 irlen ∧ op = 0x0E) ∨ (i = .user0 irlen ∧ op = 0x0C) →
    ∃ p : Option Nat,
      Sys2Proof.Machine.exec i s = .next { s with far := ⟨some op, s.far.vir, p⟩ } ∧
      (s.far.ir = some 0x0E → op = 0x0C → p = s.far.pos)

/-- R70 (c) and R46: while `USER1` is selected, a routed word or the zero fill becomes the hub's virtual-IR selection and nothing of
the engine changes. The recorded far end is the model's own record (notes/assumptions/5.md).
It holds for an ill-formed length or field too, as the model's deduction (notes/assumptions/21.md). -/
def Obligations.ShiftedWordsSelectAtTheHub : Prop :=
  ∀ (n m addr value : Nat) (s : State), s.far.ir = some 0x0E →
    (∃ p : Option Nat, Sys2Proof.Machine.exec (.routedVir n m addr value) s =
      .next { s with far := ⟨some 0x0E, some ⟨n + m, addr * 2 ^ m + value⟩, p⟩ }) ∧
    Sys2Proof.Machine.exec .zeroFill s = .next { s with far := ⟨some 0x0E, some ⟨64, 0⟩, some 0⟩ }

/-- R172's loop body: a nibble is taken into `ACC` from the top and counted; nothing else changes. That a nibble is taken in every state,
in stages that read none and beyond the eighth, where `NIB_CNT` leaves R31's range and counts modulo 16, is the model's choice
(notes/assumptions/13.md). -/
def Obligations.NibbleIsTakenIntoTheAccumulator : Prop :=
  ∀ (x : BitVec 4) (s : State), ∃ a : BitVec 32,
    Sys2Proof.Machine.exec (.nibble x) s = .next { s with acc := a, nibCnt := s.nibCnt + 1 } ∧
    a.toNat = s.acc.toNat / 16 + x.toNat * 2 ^ 28

/-- R195: a Hub Configuration Register word sets `NODE_COUNT` to bits `[26:19]`, `M_WIDTH` to bits `[7:0]`, `ERR_RAW` to the word and
`ERR_RAW_VALID` to 1, and nothing else. R21 and R22 have the word arrive in `S5_HUB_READ`; that it has this effect in every state is
the model's choice (notes/assumptions/13.md). -/
def Obligations.HubWordSetsCountAndWidth : Prop :=
  ∀ (w : BitVec 32) (i : Instr) (s : State), decode .hubRegister ⟨32, w.toNat⟩ = .ok i →
    Sys2Proof.Machine.exec i s =
      .next { s with
        nodeCount := BitVec.ofNat 8 (w.toNat / 2 ^ 19)
        mWidth := BitVec.ofNat 8 w.toNat
        errRaw := w
        errRawValid := true }

/-- R197 and R198: a Node Info Register word sets `ERR_RAW`; with `node_id = 0x08` and `FOUND = 0` it also sets `VJTAG_ADDR` to
`NODE_IDX` and `FOUND` to 1; no other field is compared and nothing else changes. The word arrives in `S7_ENUM`; that it has this effect
in every state is the model's choice (notes/assumptions/13.md). -/
def Obligations.NodeWordRecordsTheFirstMatch : Prop :=
  ∀ (w : BitVec 32) (i : Instr) (s : State), decode .nodeRegister ⟨32, w.toNat⟩ = .ok i →
    Sys2Proof.Machine.exec i s =
      .next (if w.toNat / 2 ^ 19 % 2 ^ 8 = 0x08 ∧ s.found = false then
          { s with errRaw := w, vjtagAddr := s.nodeIdx, found := true }
        else { s with errRaw := w })

/-- R195, R197 and R198 on the fields of the words: `HUB_CFG`, `NODE_INFO` and `NODE_INFO.VJTAG` complete in every state, `ERR_RAW`
being the word put together as R93 and R94 lay it out. The rules have them arrive in `S5_HUB_READ` and `S7_ENUM`; that they complete in
every state is the model's choice (notes/assumptions/13.md). -/
def Obligations.RegisterWordsCompleteFromTheirFields : Prop :=
  ∀ (v : BitVec 5) (c : BitVec 8) (f : BitVec 11) (m : BitVec 8) (s : State),
    Sys2Proof.Machine.exec (.hubCfg v c f m) s =
      .next { s with nodeCount := c, mWidth := m, errRaw := v ++ c ++ f ++ m, errRawValid := true } ∧
    (c ≠ 0x08#8 → Sys2Proof.Machine.exec (.nodeInfo v c f m) s = .next { s with errRaw := v ++ c ++ f ++ m }) ∧
    (s.found = false → Sys2Proof.Machine.exec (.nodeInfoVjtag v f m) s =
      .next { s with errRaw := v ++ 0x08#8 ++ f ++ m, vjtagAddr := s.nodeIdx, found := true }) ∧
    (s.found = true → Sys2Proof.Machine.exec (.nodeInfoVjtag v f m) s =
      .next { s with errRaw := v ++ 0x08#8 ++ f ++ m })

/-- R93, R94 and R101: every 32-bit word is a well-formed Hub Configuration Register and a well-formed Node Info Register, and on the
node channel it is the tagged row exactly when `node_id = 0x08`. -/
def Obligations.EveryRegisterWordDecodes : Prop :=
  ∀ w : BitVec 32,
    (∃ v c f m, decode .hubRegister ⟨32, w.toNat⟩ = .ok (.hubCfg v c f m) ∧
      v.toNat = w.toNat / 2 ^ 27 ∧ c.toNat = w.toNat / 2 ^ 19 % 2 ^ 8 ∧ f.toNat = w.toNat / 2 ^ 8 % 2 ^ 11 ∧
      m.toNat = w.toNat % 2 ^ 8) ∧
    ∃ i, decode .nodeRegister ⟨32, w.toNat⟩ = .ok i ∧ WellFormed i ∧
      (w.toNat / 2 ^ 19 % 2 ^ 8 = 0x08 → ∃ v f m, i = .nodeInfoVjtag v f m) ∧
      (w.toNat / 2 ^ 19 % 2 ^ 8 ≠ 0x08 → ∃ v d f m, i = .nodeInfo v d f m ∧ d.toNat = w.toNat / 2 ^ 19 % 2 ^ 8)

/-! ### Responses and commands -/

/-- R112 and R41: the response `success` writes `RESULT`, returns the engine to `IDLE` and leaves the error registers and the
Discovery Result as they were. R41 says it of `ERR_STAGE`; that `ERR_TOKEN` keeps its contents, which the host then cannot read
(R43), is the model's deduction (notes/assumptions/9.md). In `IDLE`, with no command to end, and in a stage that does
not end in success, the response is the model's choice (notes/assumptions/13.md). -/
def Obligations.SuccessResponseLeavesErrorRegisters : Prop :=
  ∀ s : State,
    Sys2Proof.Machine.exec .rspSuccess s =
      .next { s with
        result := .success
        responded := true
        stage := .idle
        awaiting := false
        out := { s.out with responses := s.out.responses ++ [.success] } }

/-- R256 for the three conditions of R250 to R253: `ERR_STAGE` is the stage, `ERR_TOKEN` the token (no value for the two conditions
that have none), `RESULT` the code, `STAGE` `IDLE`, one response is sent, `VALID` is withdrawn only for a failure in the routed
scan of a `discover`, and nothing else changes. The statement holds in `IDLE` too, where R250 has no command to end, and in stages
and commands where R251 to R254 say that the condition does not arise: the entry there, with what becomes of `VALID`, is the model's
choice (notes/assumptions/13.md). -/
def Obligations.FailuresEndTheCommandInOneStep : Prop :=
  ∀ (s : State) (i : Instr) (c : ResultCode) (tok : Option ErrToken),
    (i = .rspNoVjtagFound ∧ c = .noVjtagFound ∧ tok = none) ∨ (i = .rspNotDiscovered ∧ c = .notDiscovered ∧ tok = none) ∨
    (∃ t, i = .rspTransportError t ∧ c = .transportError ∧ tok = some t) →
    Sys2Proof.Machine.exec i s =
      .next { s with
        valid := s.valid && !(s.cmdKind == .discover &&
          (s.stage == .raSelVir || s.stage == .rbVirShift || s.stage == .rcSelVdr))
        errStage := s.stage
        errToken := tok
        result := c
        responded := true
        stage := .idle
        awaiting := false
        out := { s.out with responses := s.out.responses ++ [c] } }

/-- R190: an accepted `discover` latches its kind and handle, clears `VALID`, `FOUND` and `ERR_RAW_VALID`, and goes to `S1_RESET`.
`IRBUF` has the handle's `ceil(IRLEN/8)` bytes afterwards (R38), its
contents kept as far as they fit and zero beyond (notes/assumptions/10.md). -/
def Obligations.DiscoverIsAcceptedWhenIdle : Prop :=
  ∀ (s : State) (tap : Tap), s.stage = .idle → 4 ≤ tap.irlen →
    ∃ b : Buffer, (b.length = (tap.irlen + 7) / 8 ∧ ∀ j, j < 8 * b.length → Buffer.bit b j = Buffer.bit s.mem.irbuf j) ∧
      Sys2Proof.Machine.exec (.discover tap) s =
      .next { s with
        cmdKind := .discover
        cmdTap := tap
        mem := { s.mem with irbuf := b }
        valid := false
        found := false
        errRawValid := false
        stage := .s1Reset
        awaiting := false
        out := { s.out with ack := .accepted } }

/-- R230: an accepted `route_to_node` latches its kind, handle and value, clears `ERR_RAW_VALID`, and goes to `R0_CHECK`; the
Discovery Result and `FOUND` are untouched. `IRBUF` has the handle's `ceil(IRLEN/8)` bytes afterwards (R38), its
contents kept as far as they fit and zero beyond (notes/assumptions/10.md). -/
def Obligations.RouteIsAcceptedWhenIdle : Prop :=
  ∀ (s : State) (v : BitVec 32) (tap : Tap), s.stage = .idle → 4 ≤ tap.irlen →
    ∃ b : Buffer, (b.length = (tap.irlen + 7) / 8 ∧ ∀ j, j < 8 * b.length → Buffer.bit b j = Buffer.bit s.mem.irbuf j) ∧
      Sys2Proof.Machine.exec (.route v tap) s =
      .next { s with
        cmdKind := .route
        cmdTap := tap
        mem := { s.mem with irbuf := b }
        cmdVir := v
        errRawValid := false
        stage := .r0Check
        awaiting := false
        out := { s.out with ack := .accepted } }

/-- R111: a command while the engine is busy, and a command with a reserved code at any time, is not accepted and has no effect on
the engine. That the command channel shows it is the model's choice (notes/assumptions/2.md). -/
def Obligations.OtherCommandsAreNotAccepted : Prop :=
  ∀ (s : State) (v : BitVec 32) (tap : Tap),
    Sys2Proof.Machine.exec .cmdReserved00 s = .next { s with out := { s.out with ack := .notAccepted } } ∧
    Sys2Proof.Machine.exec .cmdReserved11 s = .next { s with out := { s.out with ack := .notAccepted } } ∧
    (s.stage ≠ .idle →
      Sys2Proof.Machine.exec (.discover tap) s = .next { s with out := { s.out with ack := .notAccepted } } ∧
      Sys2Proof.Machine.exec (.route v tap) s = .next { s with out := { s.out with ack := .notAccepted } })

/-! ### Encoding -/

/-- Words written out from the layouts of 30_encoding.md R92, R93, R94, R113, R114 and 41_scan_interface.md R165. -/
def Obligations.SampleWordsDecode : Prop :=
  decode (.command ⟨7, 10⟩) ⟨34, 0x000000042⟩ = .ok (.route 0x10 ⟨7, 10⟩) ∧
  decode (.command ⟨7, 10⟩) ⟨34, 0x000000001⟩ = .ok (.discover ⟨7, 10⟩) ∧
  decode .physicalIr ⟨10, 0b0000001110⟩ = .ok (.user1 10) ∧
  decode .hubRegister ⟨32, 0x08186E05⟩ = .ok (.hubCfg 1 3 0x06E 5) ∧
  decode .nodeRegister ⟨32, 0x08406E00⟩ = .ok (.nodeInfoVjtag 1 0x06E 0) ∧
  decode .nodeRegister ⟨32, 0x00206E01⟩ = .ok (.nodeInfo 0 0x04 0x06E 1) ∧
  decode (.virtualIr 2 5) ⟨7, 0x50⟩ = .ok (.routedVir 2 5 2 0x10) ∧
  decode (.response none) ⟨2, 0b01⟩ = .ok .rspNoVjtagFound ∧
  decode .physicalIr ⟨10, 0b0000001101⟩ = .error .opcodeNeverEmitted

/-- Decoding what a well-formed instruction is encoded as, on its channel, gives it back, with every operand at every value the
encoding admits; and exactly the codec functions and macro-operations have no bit pattern (30_encoding.md, opening). -/
def Obligations.DecodeOfEncodeIsTheInstruction : Prop :=
  (∀ i : Instr, WellFormed i → ∀ ch w, encode i = some (ch, w) → decode ch w = .ok i) ∧
  ∀ i : Instr, encode i = none ↔
    ((∃ b o w v, i = .pack b o w v) ∨ (∃ b o w, i = .unpack b o w) ∨ (∃ c, i = .afw c) ∨ (∃ a x, i = .nibacc a x) ∨
      (∃ x0 x1 x2 x3 x4 x5 x6 x7, i = .asm32 x0 x1 x2 x3 x4 x5 x6 x7) ∨ (∃ w, i = .decHub w) ∨ (∃ w, i = .decNode w) ∨
      (∃ a n m v, i = .mkvir a n m v) ∨ (∃ t, i = .selVir t) ∨ (∃ t, i = .selVdr t) ∨ i = .nibscan ∨ i = .read32 ∨
      i = .hubAddr0)

/-! ### The step -/

/-- R111 and R114: in `IDLE`, with no reset asked for, the command that is taken runs as the instruction its word decodes to. That
commands stand on a list, that the step takes the oldest off it, and that it takes a reserved code off it too (and drops it), is the
model's choice (notes/assumptions/2.md). -/
def Obligations.StepRunsTheDecodedCommand : Prop :=
  ∀ (s : State) (c : Command) (cs : List Command) (i : Instr),
    s.env.resetReq = false → s.stage = .idle → s.env.commands = c :: cs →
    decode (.command c.tap) ⟨34, c.word.toNat⟩ = .ok i →
    Sys2Proof.Machine.step s = Sys2Proof.Machine.exec i { s with env := { s.env with commands := cs } }

/-- R30: a busy stage with no request outstanding runs the operation hard-wired to it. A stage that issues a request runs
`RESET_TAP`, `SHIFT_IR` on the packed `IRBUF`, or `SHIFT_DR` on the packed `DRBUF` or into `CAPBUF`, and calls `execute_queue`
(R166); a complete word in `S5_HUB_READ` and `S7_ENUM` runs as the instruction it decodes to, and the stage or the node loop then
goes on; `S6_DERIVE` and `S9_HANDOFF` move on; `S8_FINAL` and `R0_CHECK` run the failure responses under the tests of R199, R208 and
R231. A stage that waits runs `EXECUTE`, and on a failure the command ends there; what follows a success is
`StepGoesOnWhenTheRequestCompletes`. How the moves fall into steps is the model's choice (notes/assumptions/1.md, 11.md).
That a select gives `IRBUF` the size of the latched handle there is the model's choice (notes/assumptions/10.md). -/
def Obligations.StepRunsTheStagesOperation : Prop :=
  ∀ s : State, s.env.resetReq = false →
    (s.stage = .s1Reset → s.awaiting = false →
      ∃ t, Sys2Proof.Machine.exec .resetTap s = .next t ∧
        Sys2Proof.Machine.step s = .next { t with awaiting := true, out := { t.out with trace := t.out.trace ++ [.execute] } }) ∧
    (∀ op : Nat, s.awaiting = false → 4 ≤ s.cmdTap.irlen →
      ((s.stage = .s2SelVir ∨ s.stage = .raSelVir) ∧ op = 0x0E) ∨ ((s.stage = .s4SelVdr ∨ s.stage = .rcSelVdr) ∧ op = 0x0C) →
      ∃ (b : Buffer) (t : State),
        b.length = (s.cmdTap.irlen + 7) / 8 ∧ Buffer.unpack b 0 s.cmdTap.irlen = op ∧
        Sys2Proof.Machine.exec (.shiftIr s.cmdTap s.cmdTap.irlen .irbuf) { s with mem := { s.mem with irbuf := b } } = .next t ∧
        Sys2Proof.Machine.step s = .next { t with awaiting := true, out := { t.out with trace := t.out.trace ++ [.execute] } }) ∧
    (s.stage = .s3HubAddr0 → s.awaiting = false →
      ∃ t,
        Sys2Proof.Machine.exec (.shiftDr 64 (some .drbuf) none)
          { s with mem := { s.mem with drbuf := [0, 0, 0, 0, 0, 0, 0, 0] } } = .next t ∧
        Sys2Proof.Machine.step s = .next { t with awaiting := true, out := { t.out with trace := t.out.trace ++ [.execute] } }) ∧
    (s.stage = .s5HubRead ∨ s.stage = .s7Enum → s.awaiting = false → s.nibCnt.toNat < 8 → s.mem.wf = true →
      ∃ t, Sys2Proof.Machine.exec (.shiftDr 4 none (some .capbuf)) s = .next t ∧
        Sys2Proof.Machine.step s = .next { t with awaiting := true, out := { t.out with trace := t.out.trace ++ [.execute] } }) ∧
    (s.stage = .s5HubRead → s.awaiting = false → s.nibCnt = 8 →
      ∀ i, decode .hubRegister ⟨32, s.acc.toNat⟩ = .ok i →
        ∃ t, Sys2Proof.Machine.exec i s = .next t ∧ Sys2Proof.Machine.step s = .next { t with stage := .s6Derive }) ∧
    (s.stage = .s6Derive → s.awaiting = false → Sys2Proof.Machine.step s = .next { s with nodeIdx := 0, stage := .s7Enum }) ∧
    (s.stage = .s7Enum → s.awaiting = false → s.nibCnt = 8 → s.nodeIdx = 0 →
      Sys2Proof.Machine.step s =
        .next (if 0 < s.nodeCount.toNat then { s with nodeIdx := 1, acc := 0, nibCnt := 0 } else { s with stage := .s8Final })) ∧
    (s.stage = .s7Enum → s.awaiting = false → s.nibCnt = 8 → s.nodeIdx ≠ 0 →
      ∀ i, decode .nodeRegister ⟨32, s.acc.toNat⟩ = .ok i →
        ∃ t, Sys2Proof.Machine.exec i s = .next t ∧
          Sys2Proof.Machine.step s =
            .next (if s.nodeIdx.toNat < s.nodeCount.toNat then { t with nodeIdx := s.nodeIdx + 1, acc := 0, nibCnt := 0 }
              else { t with stage := .s8Final })) ∧
    (s.stage = .s8Final → s.awaiting = false →
      (s.found = false → Sys2Proof.Machine.step s = Sys2Proof.Machine.exec .rspNoVjtagFound s) ∧
      (s.found = true → 64 < s.routedWidth →
        Sys2Proof.Machine.step s = Sys2Proof.Machine.exec (.rspTransportError .decodeRange) s) ∧
      (s.found = true → s.routedWidth ≤ 64 → Sys2Proof.Machine.step s = .next { s with valid := true, stage := .s9Handoff })) ∧
    (s.stage = .s9Handoff → s.awaiting = false →
      Sys2Proof.Machine.step s = .next { s with cmdVir := Config.dtmcsTag, stage := .raSelVir }) ∧
    (s.stage = .r0Check → s.awaiting = false →
      (s.valid = false → Sys2Proof.Machine.step s = Sys2Proof.Machine.exec .rspNotDiscovered s) ∧
      (s.valid = true → Sys2Proof.Machine.step s = .next { s with stage := .raSelVir })) ∧
    (s.stage = .rbVirShift → s.awaiting = false → s.valid = true → s.routedWidth ≤ 64 → s.mem.wf = true →
      ∃ (b : Buffer) (t : State),
        b.length = 8 ∧
        Buffer.unpack b 0 s.routedWidth = ((s.vjtagAddr.toNat <<< s.mWidth.toNat) ||| s.cmdVir.toNat) % 2 ^ s.routedWidth ∧
        Sys2Proof.Machine.exec (.shiftDr s.routedWidth (some .drbuf) none) { s with mem := { s.mem with drbuf := b } } = .next t ∧
        Sys2Proof.Machine.step s = .next { t with awaiting := true, out := { t.out with trace := t.out.trace ++ [.execute] } }) ∧
    (s.stage ≠ .idle → s.awaiting = true → ∀ tok, s.env.nextAnswer = .transportError tok →
      Sys2Proof.Machine.step s = Sys2Proof.Machine.exec .execute s)

/-- R48: what the spec fixes of the state after reset. -/
def Obligations.ResetLeavesNothingPublished : Prop :=
  Sys2Proof.Machine.State.reset.valid = false ∧ Sys2Proof.Machine.State.reset.stage = .idle ∧
  Sys2Proof.Machine.State.reset.errRawValid = false ∧
  ∀ r : HostReg, r ≠ .valid → r ≠ .errRawValid → Sys2Proof.Machine.State.reset.hostRead r = none

/-- The invariant of the sequencer holds after reset. -/
def Obligations.ResetIsCoherent : Prop := Sys2Proof.Machine.State.reset.Coherent

/-- Every step keeps the invariant of the sequencer, engine reset included. -/
def Obligations.StepKeepsCoherent : Prop :=
  ∀ s t : State, s.Coherent → Sys2Proof.Machine.step s = .next t → t.Coherent

/-- R168: "The engine has a step whatever the oracle answers": from a coherent state a step answers a next state, but for a command
whose TAP handle is refused; no fault is reachable. -/
def Obligations.StepAnswersWhateverTheOracle : Prop :=
  ∀ s : State, s.Coherent →
    (s.stage = .idle → s.env.resetReq = false → ∀ c cs, s.env.commands = c :: cs → 4 ≤ c.tap.irlen) →
    ∃ t, Sys2Proof.Machine.step s = .next t

/-- R290, R291, R293: an asked-for engine reset acts at any stage; it sends no response and no request, leaves the command channel
alone, and leaves every register of the engine as after reset. Between commands the far end and the queue are untouched; in the
middle of a command the far end is not known afterwards, and a request may or may not be left in the queue. That the commands waiting
on the channel, and what the model's own output fields show, survive the reset is the model's choice (notes/assumptions/7.md), and so
is that the registers the spec calls unspecified get the values of `State.reset` (notes/assumptions/6.md, notes/assumptions/7.md). -/
def Obligations.EngineResetEndsTheCommandSilently : Prop :=
  ∀ s : State, s.env.resetReq = true →
    ∃ t, Sys2Proof.Machine.step s = .next t ∧
      t.out = s.out ∧ t.env.commands = s.env.commands ∧ t.env.resetReq = false ∧
      (t.queue = s.queue ∨ (s.stage ≠ .idle ∧ t.queue = [])) ∧
      (s.stage = .idle → t.far = s.far) ∧ (s.stage ≠ .idle → t.far = ⟨none, none, none⟩) ∧
      { t with queue := [], far := .unknown, env := State.reset.env, out := State.reset.out,
               mem := { t.mem with caller := [] } } = State.reset

/-! ### Whole-machine rules -/

/-- R24, the lifecycle of `VALID`, complete: after a step `VALID` is 1 exactly if there was no reset and either step 8 has just set
it (a node found and `n + m` at most 64, R199 and R208), or it was 1 before and neither the acceptance of a `discover` (R190) nor a
transport failure in the routed scan of a `discover` (R201) has cleared it. -/
def Obligations.ValidFollowsItsLifecycle : Prop :=
  ∀ s t : State, Sys2Proof.Machine.step s = .next t →
    (t.valid = true ↔
      s.env.resetReq = false ∧
      ((s.stage = .s8Final ∧ s.awaiting = false ∧ s.found = true ∧ s.routedWidth ≤ 64) ∨
        (s.valid = true ∧
          ¬ (s.stage = .idle ∧ ∃ c cs, s.env.commands = c :: cs ∧ c.word.extractLsb' 0 2 = 0b01#2) ∧
          ¬ (s.cmdKind = .discover ∧ (s.stage = .raSelVir ∨ s.stage = .rbVirShift ∨ s.stage = .rcSelVdr) ∧
            s.awaiting = true ∧ ∃ tok, s.env.nextAnswer = .transportError tok))))

/-- R21 to R23 and R36, "written only by": no operation but a hub word writes `NODE_COUNT` or `M_WIDTH`, no operation but a tagged node
word writes `VJTAG_ADDR` or sets `FOUND`, and no operation sets `VALID`. -/
def Obligations.OnlyRegisterWordsWriteTheResultFields : Prop :=
  ∀ (i : Instr) (s t : State), Sys2Proof.Machine.exec i s = .next t →
    (t.nodeCount ≠ s.nodeCount ∨ t.mWidth ≠ s.mWidth → ∃ v c f m, i = .hubCfg v c f m) ∧
    (t.vjtagAddr ≠ s.vjtagAddr ∨ (t.found = true ∧ s.found = false) → ∃ v f m, i = .nodeInfoVjtag v f m) ∧
    (t.valid = true → s.valid = true)

/-- R34: the stages follow each other in the fixed order; the only other move is a failure, which goes straight to `IDLE`. -/
def Obligations.StagesFollowTheFixedOrder : Prop :=
  ∀ s t : State, Sys2Proof.Machine.step s = .next t → s.env.resetReq = false →
    t.stage = s.stage ∨
    (s.stage, t.stage) ∈
      [(Stage.idle, Stage.s1Reset), (.s1Reset, .s2SelVir), (.s2SelVir, .s3HubAddr0), (.s3HubAddr0, .s4SelVdr),
       (.s4SelVdr, .s5HubRead), (.s5HubRead, .s6Derive), (.s6Derive, .s7Enum), (.s7Enum, .s8Final), (.s8Final, .s9Handoff),
       (.s9Handoff, .raSelVir), (.idle, .r0Check), (.r0Check, .raSelVir), (.raSelVir, .rbVirShift),
       (.rbVirShift, .rcSelVdr), (.rcSelVdr, .idle)] ∨
    (t.stage = .idle ∧ t.result ≠ .success ∧ t.errStage = s.stage)

/-- R236: `route_to_node` never writes `VALID`, `NODE_COUNT`, `M_WIDTH`, `VJTAG_ADDR` or `FOUND`, at its acceptance and in any of its
stages, whatever the outcome. -/
def Obligations.RouteKeepsTheDiscoveryResult : Prop :=
  ∀ s t : State, Sys2Proof.Machine.step s = .next t → s.env.resetReq = false →
    (s.stage = .idle ∧ ∃ c cs, s.env.commands = c :: cs ∧ c.word.extractLsb' 0 2 = 0b10#2) ∨
    (s.cmdKind = .route ∧ (s.stage = .r0Check ∨ s.stage = .raSelVir ∨ s.stage = .rbVirShift ∨ s.stage = .rcSelVdr)) →
    t.valid = s.valid ∧ t.nodeCount = s.nodeCount ∧ t.mWidth = s.mWidth ∧ t.vjtagAddr = s.vjtagAddr ∧ t.found = s.found

/-- R112: every command in progress that a step ends, it ends with exactly one response, whose code `RESULT` then holds; and a step
that ends no command sends none. -/
def Obligations.OneResponsePerCommand : Prop :=
  ∀ s t : State, Sys2Proof.Machine.step s = .next t → s.env.resetReq = false →
    (s.stage ≠ .idle ∧ t.stage = .idle ∧ t.out.responses = s.out.responses ++ [t.result]) ∨
    ((s.stage = .idle ∨ t.stage ≠ .idle) ∧ t.out.responses = s.out.responses)

/-- R67, R92 and R100 (d), with R76 and R166: a step issues nothing, or, when no request is outstanding, one request and the
`execute_queue` call that follows it. A request is one of the five forms of R67: the physical opcodes `0x0E` and `0x0C` in `IRLEN`
bits, 64 zeros, one captured nibble, the routed word of `n + m` (1 to 64) bits, or the TAP reset. -/
def Obligations.OnlyTheListedRequestsAreIssued : Prop :=
  ∀ s t : State, s.Coherent → Sys2Proof.Machine.step s = .next t →
    t.out.trace = s.out.trace ∨
    (s.awaiting = false ∧ t.awaiting = true ∧ ∃ r, t.out.trace = s.out.trace ++ [.request r, .execute] ∧
      (r = .resetTap ∨ r = .shiftIr s.cmdTap s.cmdTap.irlen 0x0E ∨ r = .shiftIr s.cmdTap s.cmdTap.irlen 0x0C ∨
        r = .shiftDr 64 (some 0) none ∨ r = .shiftDr 4 none (some .capbuf) ∨
        (1 ≤ s.routedWidth ∧ s.routedWidth ≤ 64 ∧
          r = .shiftDr s.routedWidth
            (some (((s.vjtagAddr.toNat <<< s.mWidth.toNat) ||| s.cmdVir.toNat) % 2 ^ s.routedWidth)) none)))

/-- R166 and R44: with no engine reset, the queue never holds more than one request, and holds one exactly while the engine waits
for `execute_queue`. That it is empty after a failed `execute_queue`, of which R164 says nothing, is the model's deduction
(notes/assumptions/16.md). -/
def Obligations.QueueHoldsAtMostOneRequest : Prop :=
  ∀ s t : State, Sys2Proof.Machine.step s = .next t → s.env.resetReq = false →
    (s.stage = .idle → s.awaiting = false) → s.queue.length = s.awaiting.toNat →
    (t.stage = .idle → t.awaiting = false) ∧ t.queue.length = t.awaiting.toNat

/-- R167, at the step: a failing `execute_queue` in any busy stage ends the command; that step emits no request and decodes nothing,
and the engine is idle afterwards with the stage and the token recorded; `VALID` is withdrawn exactly in the routed scan of a
`discover` (R201). That the queue is empty afterwards is the model's deduction (notes/assumptions/16.md). The statement holds for a
stage that waits without having issued a request too, which no run reaches (R251; notes/assumptions/22.md). -/
def Obligations.TransportFailureStopsTheCommand : Prop :=
  ∀ (s : State) (tok : Token), s.env.resetReq = false → s.stage ≠ .idle → s.awaiting = true →
    s.env.nextAnswer = .transportError tok →
    ∃ t, Sys2Proof.Machine.step s = .next t ∧
      t.out.trace = s.out.trace ∧ t.queue = [] ∧
      t.valid = (s.valid && !(s.cmdKind == .discover &&
        (s.stage == .raSelVir || s.stage == .rbVirShift || s.stage == .rcSelVdr))) ∧
      t.stage = .idle ∧ t.awaiting = false ∧ t.result = .transportError ∧ t.errStage = s.stage ∧
      t.errToken = some (.chain tok) ∧ t.out.responses = s.out.responses ++ [.transportError] ∧
      t.errRaw = s.errRaw ∧ t.errRawValid = s.errRawValid ∧ t.nodeCount = s.nodeCount ∧ t.mWidth = s.mWidth ∧
      t.vjtagAddr = s.vjtagAddr ∧ t.found = s.found ∧ t.acc = s.acc ∧ t.nibCnt = s.nibCnt ∧ t.nodeIdx = s.nodeIdx

/-- R38: no operation changes the size of `DRBUF` or `CAPBUF`; the size of `IRBUF` is changed by the acceptance of a command and by a
select only, to the `ceil(IRLEN/8)` bytes of the handle; so every step keeps `IRBUF` at the size of the latched handle. That the size is
set when the handle is latched, or named by a select, is the model's choice (notes/assumptions/10.md). -/
def Obligations.EveryOperationKeepsTheBufferSizes : Prop :=
  (∀ (i : Instr) (s t : State), Sys2Proof.Machine.exec i s = .next t →
    (s.mem.wf = true → t.mem.wf = true) ∧
    (t.mem.irbuf.length = s.mem.irbuf.length ∨
      ∃ tap : Tap, t.mem.irbuf.length = (tap.irlen + 7) / 8 ∧
        (i = .discover tap ∨ (∃ v, i = .route v tap) ∨ i = .selVir tap ∨ i = .selVdr tap))) ∧
  ∀ s t : State, Sys2Proof.Machine.step s = .next t → s.mem.irbuf.length = (s.cmdTap.irlen + 7) / 8 →
    t.mem.irbuf.length = (t.cmdTap.irlen + 7) / 8

/-- R45: the engine never reads the far end: two states that differ only in it answer alike and go on differing only in it. -/
def Obligations.EngineNeverReadsTheFarEnd : Prop :=
  ∀ (s : State) (f : FarEnd),
    (∀ t, Sys2Proof.Machine.step s = .next t →
      ∃ g, Sys2Proof.Machine.step { s with far := f } = .next { t with far := g }) ∧
    (∀ r, Sys2Proof.Machine.step s = .fault r → Sys2Proof.Machine.step { s with far := f } = .fault r) ∧
    ∀ r, Sys2Proof.Machine.step s = .refused r → Sys2Proof.Machine.step { s with far := f } = .refused r

/-- R25, R40 to R43: the host reads no field of an unset Discovery Result nor, by 20_memory.md R82, of any while a discovery
run is in progress, no `RESULT` before the first response, no `ERR_STAGE` before
a failure has set it, no `ERR_RAW` while its valid bit is 0 and no `ERR_TOKEN` but after a `transport_error`; otherwise it reads the
register. That `ERR_STAGE` holds a value once it is not `IDLE`, and when `ERR_TOKEN` does, is the model's deduction
(notes/assumptions/9.md); that the other registers, and in a `route_to_node` the fields too, are read while a command is in progress
is its choice (notes/assumptions/25.md). -/
def Obligations.HostReadsOnlyWhatHoldsAValue : Prop :=
  ∀ s : State,
    s.hostRead .valid = some (.bits s.valid.toNat) ∧ s.hostRead .errRawValid = some (.bits s.errRawValid.toNat) ∧
    (s.valid = false ∨ (s.stage ≠ .idle ∧ s.cmdKind = .discover) →
      s.hostRead .nodeCount = none ∧ s.hostRead .mWidth = none ∧ s.hostRead .vjtagAddr = none) ∧
    (s.valid = true → s.stage = .idle ∨ s.cmdKind = .route →
      s.hostRead .nodeCount = some (.bits s.nodeCount.toNat) ∧ s.hostRead .mWidth = some (.bits s.mWidth.toNat) ∧
      s.hostRead .vjtagAddr = some (.bits s.vjtagAddr.toNat)) ∧
    (s.responded = false → s.hostRead .result = none) ∧
    (s.responded = true → s.hostRead .result = some (.bits s.result.code.toNat)) ∧
    (s.errRawValid = false → s.hostRead .errRaw = none) ∧
    (s.errRawValid = true → s.hostRead .errRaw = some (.bits s.errRaw.toNat)) ∧
    (s.errStage = .idle → s.hostRead .errStage = none) ∧
    (s.errStage ≠ .idle → s.hostRead .errStage = some (.bits s.errStage.code.toNat)) ∧
    (s.result ≠ .transportError → s.hostRead .errToken = none) ∧
    (s.result = .transportError → ∀ tok, s.errToken = some tok → s.hostRead .errToken = some (.token tok))

/-! ### Whole commands -/

/-- R231: `route_to_node` before a successful discovery answers `not_discovered`, with no scan request and no `execute_queue` call; only
the command latches, the result and diagnostic registers and the channels change, and `IRBUF` in its size where the handle's
`IRLEN` asks for another (R38; the bits that fit are kept, those it gains are zero: notes/assumptions/10.md). That it takes two steps is the model's granularity
(notes/assumptions/1.md). -/
def Obligations.RouteBeforeDiscoveryFailsFast : Prop :=
  ∀ (s : State) (c : Command) (cs : List Command),
    s.env.resetReq = false → s.stage = .idle → s.valid = false → s.env.commands = c :: cs →
    c.word.extractLsb' 0 2 = 0b10#2 → 4 ≤ c.tap.irlen →
    ∃ b : Buffer, (b.length = (c.tap.irlen + 7) / 8 ∧ ∀ j, j < 8 * b.length → Buffer.bit b j = Buffer.bit s.mem.irbuf j) ∧
      Sys2Proof.core.run 2 s =
      .next { s with
        cmdKind := .route
        cmdTap := c.tap
        mem := { s.mem with irbuf := b }
        cmdVir := c.word.extractLsb' 2 32
        awaiting := false
        errRawValid := false
        result := .notDiscovered
        responded := true
        errStage := .r0Check
        errToken := none
        env := { s.env with commands := cs }
        out := { s.out with ack := .accepted, responses := s.out.responses ++ [.notDiscovered] } }

/-- R237: `route_to_node` after a successful discovery, every `execute_queue` succeeding: exactly three requests, the routed word of
`n + m` bits between the two selects; response `success`; the Discovery Result is kept; the far end is routed (R235). That it
takes eight steps is the model's granularity (notes/assumptions/1.md); the far end is the model's own record (notes/assumptions/5.md). -/
def Obligations.RouteAfterDiscoverySelectsTheNode : Prop :=
  ∀ (s : State) (c : Command) (cs : List Command) (as : List Answer),
    s.Coherent → s.env.resetReq = false → s.stage = .idle → s.valid = true → s.queue = [] → s.env.commands = c :: cs →
    c.word.extractLsb' 0 2 = 0b10#2 → 4 ≤ c.tap.irlen → s.env.answers = List.replicate 3 .success ++ as →
    ∃ t word,
      Sys2Proof.core.run 8 s = .next t ∧
      word = ((s.vjtagAddr.toNat <<< s.mWidth.toNat) ||| (c.word.extractLsb' 2 32).toNat) % 2 ^ s.routedWidth ∧
      t.stage = .idle ∧ t.result = .success ∧ t.out.responses = s.out.responses ++ [.success] ∧
      t.out.trace = s.out.trace ++ servedTrace (routedRequests c.tap s.routedWidth word) ∧
      t.valid = true ∧ t.nodeCount = s.nodeCount ∧ t.mWidth = s.mWidth ∧ t.vjtagAddr = s.vjtagAddr ∧
      t.errStage = s.errStage ∧ t.queue = [] ∧ t.env.answers = as ∧ t.env.commands = cs ∧
      t.far.ir = some 0x0C ∧ t.far.vir = some ⟨s.routedWidth, word⟩

/-- R203, R204 and R206: a whole `discover` in which every `execute_queue` succeeds, the hub presents the words `h` and `ws` (one per
node), the first node tagged `0x08` stands at position `a` (0-based) and `n + m` is at most 64: it answers `success` after exactly
`15 + 8N` requests in the order of R204, publishes `N`, `m` and `a + 1`, and leaves the far end routed to the node with `DTMCS_TAG`.
That it takes `36 + 17N` steps is the model's granularity (notes/assumptions/1.md); the far end is the model's own record
(notes/assumptions/5.md). -/
def Obligations.DiscoverFindsTheFirstVjtagNode : Prop :=
  ∀ (s : State) (c : Command) (cs : List Command) (as : List Answer) (xs : List Nat) (h : BitVec 32) (ws : List (BitVec 32))
    (a n : Nat),
    s.Coherent → s.env.resetReq = false → s.stage = .idle → s.queue = [] → s.env.commands = c :: cs →
    c.word.extractLsb' 0 2 = 0b01#2 → 4 ≤ c.tap.irlen →
    ws.length = nodeCountOf h → ws.findIdx? (fun w => nodeIdOf w == 0x08) = some a →
    n = addressFieldWidth (nodeCountOf h) → n + mWidthOf h ≤ 64 →
    s.env.answers = List.replicate (15 + 8 * ws.length) .success ++ as →
    s.env.captures = streamOf (h :: ws) ++ xs →
    ∃ t word,
      Sys2Proof.core.run (36 + 17 * ws.length) s = .next t ∧
      word = (((a + 1) <<< mWidthOf h) ||| Config.dtmcsTag.toNat) % 2 ^ (n + mWidthOf h) ∧
      t.stage = .idle ∧ t.result = .success ∧ t.out.responses = s.out.responses ++ [.success] ∧
      t.valid = true ∧ t.nodeCount.toNat = nodeCountOf h ∧ t.mWidth.toNat = mWidthOf h ∧ t.vjtagAddr.toNat = a + 1 ∧
      t.out.trace = s.out.trace ++
        servedTrace (enumerationRequests c.tap ws.length ++ routedRequests c.tap (n + mWidthOf h) word) ∧
      t.queue = [] ∧ t.env.answers = as ∧ t.env.captures = xs ∧ t.env.commands = cs ∧
      t.far.ir = some 0x0C ∧ t.far.vir = some ⟨n + mWidthOf h, word⟩

/-- R252, R204 and R207: a whole `discover` in which every `execute_queue` succeeds and no node is tagged `0x08` (a hub with no nodes
included, whatever `m`): it answers `no_vjtag_found` after exactly `12 + 8N` requests, with `ERR_STAGE = S8_FINAL` and `ERR_RAW` the
last word decoded, and leaves the Discovery Result unset. That it takes `29 + 17N` steps is the model's
granularity (notes/assumptions/1.md). -/
def Obligations.DiscoverWithoutVjtagNodeFindsNothing : Prop :=
  ∀ (s : State) (c : Command) (cs : List Command) (as : List Answer) (xs : List Nat) (h : BitVec 32) (ws : List (BitVec 32)),
    s.Coherent → s.env.resetReq = false → s.stage = .idle → s.queue = [] → s.env.commands = c :: cs →
    c.word.extractLsb' 0 2 = 0b01#2 → 4 ≤ c.tap.irlen →
    ws.length = nodeCountOf h → (∀ w ∈ ws, nodeIdOf w ≠ 0x08) →
    s.env.answers = List.replicate (12 + 8 * ws.length) .success ++ as →
    s.env.captures = streamOf (h :: ws) ++ xs →
    ∃ t,
      Sys2Proof.core.run (29 + 17 * ws.length) s = .next t ∧
      t.stage = .idle ∧ t.result = .noVjtagFound ∧ t.out.responses = s.out.responses ++ [.noVjtagFound] ∧
      t.valid = false ∧ t.errStage = .s8Final ∧ t.errRawValid = true ∧ t.errRaw = ws.getLast?.getD h ∧ t.errToken = none ∧
      t.out.trace = s.out.trace ++ servedTrace (enumerationRequests c.tap ws.length) ∧
      t.env.answers = as ∧ t.env.captures = xs ∧ t.env.commands = cs

/-- R205: a command in progress always ends, whatever the scan-chain engine answers and captures: from every coherent busy state with
no reset asked for, the engine is back in `IDLE` within 4370 steps (the longest run has `15 + 8 * 255 = 2055` requests). The number of steps is the
model's granularity (notes/assumptions/1.md). -/
def Obligations.EveryCommandEnds : Prop :=
  ∀ s : State, s.Coherent → s.env.resetReq = false → s.stage ≠ .idle →
    ∃ k t, k ≤ 4370 ∧ Sys2Proof.core.run k s = .next t ∧ t.stage = .idle

/-! ### Latches and completions -/

/-- R37: while a command is in progress its latches keep their values until the response, and through it, but for the `CMD_VIR` that
step 9 of a `discover` loads (R200); while the engine is idle only the acceptance of a command writes them (R190, R230). -/
def Obligations.LatchesAreConstantUntilTheResponse : Prop :=
  ∀ s t : State, Sys2Proof.Machine.step s = .next t → s.env.resetReq = false →
    (s.stage ≠ .idle →
      t.cmdKind = s.cmdKind ∧ t.cmdTap = s.cmdTap ∧
      t.cmdVir = if s.stage = .s9Handoff ∧ s.awaiting = false then Config.dtmcsTag else s.cmdVir) ∧
    (s.stage = .idle →
      (t.stage = .idle ∧ t.cmdKind = s.cmdKind ∧ t.cmdTap = s.cmdTap ∧ t.cmdVir = s.cmdVir) ∨
      (∃ c cs, s.env.commands = c :: cs ∧ t.cmdTap = c.tap ∧
        ((c.word.extractLsb' 0 2 = 0b01#2 ∧ t.cmdKind = .discover ∧ t.cmdVir = s.cmdVir) ∨
          (c.word.extractLsb' 0 2 = 0b10#2 ∧ t.cmdKind = .route ∧ t.cmdVir = c.word.extractLsb' 2 32))))

/-- R164, R172, R191 to R195, R233 to R235: a stage whose request is answered `success` runs `EXECUTE` and goes on: `S1_RESET` to
`S3_HUB_ADDR0`, `RA_SEL_VIR` and `RB_VIR_SHIFT` to the next stage; `S4_SEL_VDR` to the hub read, with `ACC` and `NIB_CNT` 0;
`S5_HUB_READ` and `S7_ENUM` take the captured nibble as `NIBBLE` does; `RC_SEL_VDR` answers `success`. How the moves fall into steps
is the model's choice (notes/assumptions/1.md, 11.md). -/
def Obligations.StepGoesOnWhenTheRequestCompletes : Prop :=
  ∀ s : State, s.env.resetReq = false → s.awaiting = true → s.env.nextAnswer = .success →
    ∃ t, Sys2Proof.Machine.exec .execute s = .next t ∧
      (s.stage = .s1Reset → Sys2Proof.Machine.step s = .next { t with stage := .s2SelVir }) ∧
      (s.stage = .s2SelVir → Sys2Proof.Machine.step s = .next { t with stage := .s3HubAddr0 }) ∧
      (s.stage = .s3HubAddr0 → Sys2Proof.Machine.step s = .next { t with stage := .s4SelVdr }) ∧
      (s.stage = .s4SelVdr → Sys2Proof.Machine.step s = .next { t with stage := .s5HubRead, acc := 0, nibCnt := 0 }) ∧
      (s.stage = .s5HubRead ∨ s.stage = .s7Enum →
        ∃ x : BitVec 4, x.toNat = Buffer.unpack t.mem.capbuf 0 4 ∧
          Sys2Proof.Machine.step s = Sys2Proof.Machine.exec (.nibble x) t) ∧
      (s.stage = .raSelVir → Sys2Proof.Machine.step s = .next { t with stage := .rbVirShift }) ∧
      (s.stage = .rbVirShift → Sys2Proof.Machine.step s = .next { t with stage := .rcSelVdr }) ∧
      (s.stage = .rcSelVdr → Sys2Proof.Machine.step s = Sys2Proof.Machine.exec .rspSuccess t)
end

