-- ==== Sys2Proof/Laws/Buffers.lean ====
section
/-!
SUPPORT. Bit-addressed buffers: what `setBit`, `pack` and `unpack` do to every bit, said once (spec 20_memory.md R60, R61;
40_codec.md R130, R131).
-/

namespace Sys2Proof

theorem Byte.getLsbD_setBit (y : Byte) (i k : Nat) (v : Bool) (hi : i < 8) :
    (Byte.setBit y i v).getLsbD k = if k = i then v else y.getLsbD k := by
  have h1 : (1#8 <<< i).getLsbD k = decide (k = i) := by
    rw [BitVec.getLsbD_shiftLeft, BitVec.getLsbD_one]
    by_cases h : k = i
    · subst h; simp [hi]
    · by_cases h' : k < i
      · simp [h, h']
      · have : k - i ≠ 0 := by omega
        simp [h, this]
  unfold Byte.setBit
  cases v
  · rw [if_neg (by decide), BitVec.getLsbD_and, BitVec.getLsbD_not, h1]
    by_cases h : k = i
    · subst h; simp
    · by_cases h8 : k < 8
      · simp only [h, h8, decide_true, decide_false, Bool.not_false, Bool.and_true, if_false]
      · rw [BitVec.getLsbD_of_ge _ _ (Nat.le_of_not_lt h8)]; simp [h]
  · rw [if_pos rfl, BitVec.getLsbD_or, h1]
    by_cases h : k = i
    · subst h; simp
    · simp only [h, decide_false, Bool.or_false, if_false]

@[simp] theorem Buffer.length_setBit (b : Buffer) (j : Nat) (v : Bool) : (Buffer.setBit b j v).length = b.length := by
  simp [Buffer.setBit]

theorem Buffer.bit_setBit (b : Buffer) (j k : Nat) (v : Bool) (hj : j < Buffer.capacity b) :
    Buffer.bit (Buffer.setBit b j v) k = if k = j then v else Buffer.bit b k := by
  have hl : j / 8 < b.length := by unfold Buffer.capacity at hj; omega
  unfold Buffer.bit Buffer.setBit
  by_cases h : j / 8 = k / 8
  · have e : (b.set (j / 8) (Byte.setBit (b.getD (j / 8) 0) (j % 8) v)).getD (k / 8) 0 =
        Byte.setBit (b.getD (k / 8) 0) (j % 8) v := by
      rw [← h]; simp [List.getD_eq_getElem?_getD, hl]
    rw [e, Byte.getLsbD_setBit _ _ _ _ (Nat.mod_lt _ (by decide))]
    by_cases hk : k = j
    · simp [hk]
    · have : k % 8 ≠ j % 8 := by omega
      simp [this, hk]
  · have hk : k ≠ j := by intro e; exact h (by rw [e])
    simp [List.getD_eq_getElem?_getD, h, hk]

@[simp] theorem Buffer.length_pack (b : Buffer) (off v w : Nat) : (Buffer.pack b off v w).length = b.length := by
  induction w with
  | zero => rfl
  | succ k ih => simp [Buffer.pack, ih]

@[simp] theorem Buffer.capacity_pack (b : Buffer) (off v w : Nat) :
    Buffer.capacity (Buffer.pack b off v w) = Buffer.capacity b := by
  simp [Buffer.capacity]

/-- Every bit after a `pack`: inside the field the value's bit, outside it the old bit. -/
theorem Buffer.bit_pack (b : Buffer) (off v w j : Nat) (h : off + w ≤ Buffer.capacity b) :
    Buffer.bit (Buffer.pack b off v w) j =
      if off ≤ j ∧ j < off + w then v.testBit (j - off) else Buffer.bit b j := by
  induction w with
  | zero => simp only [Buffer.pack]; rw [if_neg (by omega)]
  | succ k ih =>
    rw [Buffer.pack, Buffer.bit_setBit _ _ _ _ (by rw [Buffer.capacity_pack]; omega), ih (by omega)]
    by_cases h1 : j = off + k
    · subst h1; simp
    · rw [if_neg h1]
      by_cases h2 : off ≤ j ∧ j < off + k
      · rw [if_pos h2, if_pos (by omega)]
      · rw [if_neg h2, if_neg (by omega)]

theorem Buffer.unpack_lt (b : Buffer) (off w : Nat) : Buffer.unpack b off w < 2 ^ w := by
  induction w with
  | zero => simp [Buffer.unpack]
  | succ k ih =>
    have : (Buffer.bit b (off + k)).toNat ≤ 1 := Bool.toNat_le _
    have := Nat.mul_le_mul_right (2 ^ k) this
    rw [Buffer.unpack, Nat.pow_succ]; omega

/-- Every bit of what `unpack` reads. -/
theorem Buffer.testBit_unpack (b : Buffer) (off w k : Nat) :
    (Buffer.unpack b off w).testBit k = (decide (k < w) && Buffer.bit b (off + k)) := by
  induction w with
  | zero => simp [Buffer.unpack]
  | succ n ih =>
    rw [Buffer.unpack, Nat.add_comm, Nat.mul_comm]
    rcases Nat.lt_trichotomy k n with h | h | h
    · rw [Nat.testBit_two_pow_mul_add _ (Buffer.unpack_lt b off n), if_pos h, ih]
      simp [h, Nat.lt_succ_of_lt h]
    · subst h
      rw [Nat.testBit_two_pow_mul_add _ (Buffer.unpack_lt b off k), if_neg (Nat.lt_irrefl k)]
      cases Buffer.bit b (off + k) <;> simp
    · rw [Nat.testBit_two_pow_mul_add _ (Buffer.unpack_lt b off n), if_neg (by omega)]
      have hlt : ¬ k < n + 1 := by omega
      have h1 : Nat.testBit 1 (k - n) = false := Nat.testBit_lt_two_pow (Nat.one_lt_two_pow (by omega))
      cases Buffer.bit b (off + n) <;> simp [hlt, h1]

/-- `unpack` reads the bits of its field and nothing else. -/
theorem Buffer.unpack_congr (a b : Buffer) (off w : Nat)
    (h : ∀ j, off ≤ j → j < off + w → Buffer.bit a j = Buffer.bit b j) : Buffer.unpack a off w = Buffer.unpack b off w := by
  apply Nat.eq_of_testBit_eq
  intro k
  rw [Buffer.testBit_unpack, Buffer.testBit_unpack]
  by_cases hk : k < w
  · rw [h (off + k) (by omega) (by omega)]
  · simp [hk]

@[simp] theorem Buffer.length_zeros (n : Nat) : (Buffer.zeros n).length = n := by simp [Buffer.zeros]

theorem Buffer.bit_zeros (n j : Nat) : Buffer.bit (Buffer.zeros n) j = false := by
  unfold Buffer.bit Buffer.zeros
  rw [List.getD_eq_getElem?_getD, List.getElem?_replicate]
  split <;> simp

@[simp] theorem Buffer.length_resize (b : Buffer) (n : Nat) : (b.resize n).length = n := by
  simp [Buffer.resize]; omega

/-- A resized buffer keeps every bit that still fits, and the bits it gains are zero. -/
theorem Buffer.bit_resize (b : Buffer) (n j : Nat) : Buffer.bit (b.resize n) j = (decide (j / 8 < n) && Buffer.bit b j) := by
  unfold Buffer.bit Buffer.resize Buffer.zeros
  by_cases h : j / 8 < n
  · by_cases hb : j / 8 < b.length
    · simp [List.getD_eq_getElem?_getD, List.getElem?_append, h, hb]
    · have : min n b.length ≤ j / 8 := by omega
      simp [List.getD_eq_getElem?_getD, List.getElem?_append, List.getElem?_replicate, h, hb]
      split <;> simp
  · simp [List.getD_eq_getElem?_getD, List.getElem?_append, List.getElem?_replicate, h]
    split <;> simp_all

theorem Buffer.resize_self (b : Buffer) : b.resize b.length = b := by simp [Buffer.resize, Buffer.zeros]

/-- A value packed at offset 0 of a buffer and read back: `v mod 2^w`. -/
theorem Buffer.unpack_pack_self (b : Buffer) (off v w : Nat) (h : off + w ≤ Buffer.capacity b) :
    Buffer.unpack (Buffer.pack b off v w) off w = v % 2 ^ w := by
  apply Nat.eq_of_testBit_eq
  intro k
  rw [Buffer.testBit_unpack, Buffer.bit_pack _ _ _ _ _ h, Nat.testBit_mod_two_pow]
  by_cases hk : k < w
  · simp [hk]
  · simp [hk]

end Sys2Proof

namespace Sys2Proof.Machine

@[simp] theorem Memory.get_set_same (m : Memory) (i : BufId) (b : Buffer) : (m.set i b).get i = b := by cases i <;> rfl

theorem Memory.get_set_other (m : Memory) (i j : BufId) (b : Buffer) (h : j ≠ i) : (m.set i b).get j = m.get j := by
  cases i <;> cases j <;> first | rfl | exact absurd rfl h

theorem Memory.set_get_self (m : Memory) (i : BufId) : m.set i (m.get i) = m := by cases i <;> rfl

theorem Memory.wf_iff (m : Memory) : m.wf = true ↔ m.drbuf.length = 8 ∧ m.capbuf.length = 1 := by
  simp [Memory.wf]

/-- Replacing a buffer by one of the same size keeps the sizes that memory keeps. -/
theorem Memory.wf_set (m : Memory) (i : BufId) (b : Buffer) (hl : b.length = (m.get i).length) (h : m.wf = true) :
    (m.set i b).wf = true := by
  rw [Memory.wf_iff] at h ⊢
  cases i <;> simp_all [Memory.set, Memory.get]

/-- `pack` on a named buffer keeps the form of memory. -/
theorem Memory.wf_pack (m : Memory) (i : BufId) (off w v : Nat) (h : m.wf = true) : (m.pack i off w v).wf = true :=
  Memory.wf_set m i _ (Buffer.length_pack _ _ _ _) h

end Sys2Proof.Machine
end

