-- ==== Sys2Proof/Laws/Codec.lean ====
section
/-!
SUPPORT. One spec lemma per codec function (spec 40_codec.md R132 to R137): the provers cite these and do not unfold the
function.
-/

namespace Sys2Proof.Machine

/-! ### `address_field_width` -/

theorem lt_two_pow_addressFieldWidth (c : Nat) : c < 2 ^ addressFieldWidth c := by
  unfold addressFieldWidth
  split
  · subst_vars; decide
  · exact Nat.lt_log2_self

theorem addressFieldWidth_le (c k : Nat) (h : c < 2 ^ k) : addressFieldWidth c ≤ k := by
  unfold addressFieldWidth
  split
  · exact Nat.zero_le k
  · exact (Nat.log2_lt ‹_›).2 h

theorem addressFieldWidth_pos (c : Nat) (h : c ≠ 0) : 1 ≤ addressFieldWidth c := by
  simp [addressFieldWidth, h]

theorem addrWidth_le (s : State) : s.addrWidth ≤ 8 := addressFieldWidth_le _ _ s.nodeCount.isLt

/-! ### `NIBACC` and `ASM32` -/

theorem getLsbD_nibAcc (acc : BitVec 32) (x k : Nat) (hk : k < 32) :
    (nibAcc acc x).getLsbD k = if k < 28 then acc.getLsbD (k + 4) else x.testBit (k - 28) := by
  unfold nibAcc
  rw [BitVec.getLsbD_or, BitVec.getLsbD_ushiftRight, BitVec.getLsbD_shiftLeft, BitVec.getLsbD_setWidth, BitVec.getLsbD_ofNat]
  by_cases h : k < 28
  · simp [h, hk, Nat.add_comm]
  · have h1 : acc.getLsbD (4 + k) = false := BitVec.getLsbD_of_ge _ _ (by omega)
    have h2 : k - 28 < 4 := by omega
    have h3 : k - 28 < 32 := by omega
    simp [h, hk, h1, h2, h3]

theorem toNat_nibAcc (acc : BitVec 32) (x : Nat) : (nibAcc acc x).toNat = acc.toNat / 16 + x % 16 * 2 ^ 28 := by
  have hlt : acc.toNat / 16 < 2 ^ 28 := by have := acc.isLt; omega
  have hx : x % 16 < 16 := Nat.mod_lt _ (by decide)
  apply Nat.eq_of_testBit_eq
  intro k
  rw [BitVec.testBit_toNat, Nat.add_comm, Nat.mul_comm, Nat.testBit_two_pow_mul_add _ hlt]
  by_cases hk : k < 32
  · rw [getLsbD_nibAcc _ _ _ hk]
    by_cases h : k < 28
    · have : acc.toNat / 16 = acc.toNat / 2 ^ 4 := rfl
      rw [if_pos h, if_pos h, this, Nat.testBit_div_two_pow, BitVec.testBit_toNat, Nat.add_comm]
    · have : x % 16 = x % 2 ^ 4 := rfl
      rw [if_neg h, if_neg h, this, Nat.testBit_mod_two_pow]
      simp; omega
  · rw [BitVec.getLsbD_of_ge _ _ (by omega), if_neg (by omega)]
    symm; apply Nat.testBit_lt_two_pow
    exact Nat.lt_of_lt_of_le hx (Nat.pow_le_pow_right (by norm_num : 0 < 2) (by omega : 4 ≤ k - 28))

/-- `NIBACC` reads the low four bits of the nibble only (spec 92_eei_decisions.md D19). -/
theorem nibAcc_mod (acc : BitVec 32) (x : Nat) : nibAcc acc (x % 16) = nibAcc acc x := by
  apply BitVec.eq_of_toNat_eq; rw [toNat_nibAcc, toNat_nibAcc, Nat.mod_mod]

/-- The closed form of `ASM32`: the first nibble captured is the lowest. -/
theorem toNat_assemble32 (acc : BitVec 32) (x0 x1 x2 x3 x4 x5 x6 x7 : Nat) :
    ([x0, x1, x2, x3, x4, x5, x6, x7].foldl nibAcc acc).toNat =
      x0 % 16 + x1 % 16 * 16 + x2 % 16 * 16 ^ 2 + x3 % 16 * 16 ^ 3 + x4 % 16 * 16 ^ 4 + x5 % 16 * 16 ^ 5 +
        x6 % 16 * 16 ^ 6 + x7 % 16 * 16 ^ 7 := by
  simp only [List.foldl, toNat_nibAcc]
  have := acc.isLt
  omega

/-! ### The fields of a register word -/

theorem toNat_extractLsb'_eq (w : BitVec 32) (lo len : Nat) : (w.extractLsb' lo len).toNat = w.toNat / 2 ^ lo % 2 ^ len := by
  rw [BitVec.extractLsb'_toNat, Nat.shiftRight_eq_div_pow]

theorem joinFields_extract (w : BitVec 32) :
    joinFields (w.extractLsb' 27 5) (w.extractLsb' 19 8) (w.extractLsb' 8 11) (w.extractLsb' 0 8) = w := by
  apply BitVec.eq_of_toNat_eq
  unfold joinFields
  simp only [BitVec.toNat_append, toNat_extractLsb'_eq]
  have := w.isLt
  rw [← Nat.shiftLeft_add_eq_or_of_lt (by omega), ← Nat.shiftLeft_add_eq_or_of_lt (by omega),
    ← Nat.shiftLeft_add_eq_or_of_lt (by omega)]
  simp only [Nat.shiftLeft_eq]
  omega

theorem toNat_joinFields (v : BitVec 5) (c : BitVec 8) (f : BitVec 11) (m : BitVec 8) :
    (joinFields v c f m).toNat = v.toNat * 2 ^ 27 + c.toNat * 2 ^ 19 + f.toNat * 2 ^ 8 + m.toNat := by
  unfold joinFields
  have := c.isLt; have := f.isLt; have := m.isLt
  simp only [BitVec.toNat_append]
  rw [← Nat.shiftLeft_add_eq_or_of_lt (by omega), ← Nat.shiftLeft_add_eq_or_of_lt (by omega),
    ← Nat.shiftLeft_add_eq_or_of_lt (by omega)]
  simp only [Nat.shiftLeft_eq]
  omega

theorem registerWord_eq (v : BitVec 5) (c : BitVec 8) (f : BitVec 11) (m : BitVec 8) :
    registerWord v c f m = joinFields v c f m := rfl

/-- The four fields of a word put together from fields. -/
theorem extract_joinFields (v : BitVec 5) (c : BitVec 8) (f : BitVec 11) (m : BitVec 8) :
    (joinFields v c f m).extractLsb' 27 5 = v ∧ (joinFields v c f m).extractLsb' 19 8 = c ∧
      (joinFields v c f m).extractLsb' 8 11 = f ∧ (joinFields v c f m).extractLsb' 0 8 = m := by
  have := v.isLt; have := c.isLt; have := f.isLt; have := m.isLt
  refine ⟨?_, ?_, ?_, ?_⟩ <;> apply BitVec.eq_of_toNat_eq <;> rw [toNat_extractLsb'_eq, toNat_joinFields] <;> omega

/-! ### `MKVIR` -/

theorem mkVir_lt (addr n m v : Nat) : mkVir addr n m v < 2 ^ (n + m) := Nat.mod_lt _ (Nat.two_pow_pos _)

theorem testBit_mkVir (addr n m v k : Nat) :
    (mkVir addr n m v).testBit k = (decide (k < n + m) && ((decide (m ≤ k) && addr.testBit (k - m)) || v.testBit k)) := by
  unfold mkVir
  rw [Nat.testBit_mod_two_pow, Nat.testBit_or, Nat.testBit_shiftLeft]

/-- A value that fits: address above, value below. -/
theorem mkVir_of_fits (addr n m v : Nat) (ha : addr < 2 ^ n) (hv : v < 2 ^ m) : mkVir addr n m v = addr * 2 ^ m + v := by
  unfold mkVir
  rw [← Nat.shiftLeft_add_eq_or_of_lt hv, Nat.shiftLeft_eq]
  apply Nat.mod_eq_of_lt
  calc addr * 2 ^ m + v < addr * 2 ^ m + 2 ^ m := by omega
    _ = (addr + 1) * 2 ^ m := by ring
    _ ≤ 2 ^ n * 2 ^ m := Nat.mul_le_mul_right _ ha
    _ = 2 ^ (n + m) := (Nat.pow_add ..).symm

/-! ### The IR value -/

theorem capacity_irBuffer (b : Buffer) (irlen op : Nat) : irlen ≤ Buffer.capacity (irBuffer b irlen op) := by
  unfold irBuffer irBytes; rw [Buffer.capacity_pack]; simp only [Buffer.capacity, Buffer.length_resize]; omega

@[simp] theorem length_irBuffer (b : Buffer) (irlen op : Nat) : (irBuffer b irlen op).length = irBytes irlen := by simp [irBuffer]

/-- The IR value is the opcode, zero-extended to `IRLEN` bits. -/
theorem unpack_irBuffer (b : Buffer) (irlen op : Nat) (h : op < 2 ^ irlen) : Buffer.unpack (irBuffer b irlen op) 0 irlen = op := by
  have hc := capacity_irBuffer b irlen op
  unfold irBuffer at hc ⊢
  rw [Buffer.capacity_pack] at hc
  rw [Buffer.unpack_pack_self _ _ _ _ (by omega), Nat.mod_eq_of_lt h]

theorem opcode_lt (irlen op : Nat) (h4 : 4 ≤ irlen) (h : op < 16) : op < 2 ^ irlen :=
  Nat.lt_of_lt_of_le h (Nat.pow_le_pow_right (by norm_num : 0 < 2) h4)

/-! ### The decoder on the words of the register and command channels -/

theorem decode_hubRegister (w : BitVec 32) : decode .hubRegister ⟨32, w.toNat⟩ = .ok (decodeHub w) := by
  unfold decode
  rw [if_neg (Nat.not_le.2 w.isLt)]
  simp [ofWidth]

theorem decode_nodeRegister (w : BitVec 32) : decode .nodeRegister ⟨32, w.toNat⟩ = .ok (decodeNode w) := by
  unfold decode
  rw [if_neg (Nat.not_le.2 w.isLt)]
  simp [ofWidth]

theorem decode_command (w : BitVec 34) (tap : Tap) : decode (.command tap) ⟨34, w.toNat⟩ = .ok (decodeCommand w tap) := by
  unfold decode
  rw [if_neg (Nat.not_le.2 w.isLt)]
  simp [ofWidth]

end Sys2Proof.Machine
end

