-- ==== Sys2Proof/Laws/State.lean ====
section
/-!
SUPPORT. One lemma per field per named update of State, each true by definition, so that no later proof unfolds a record update.
-/

namespace Sys2Proof.Machine

variable (s : State)

/-! ### `State.emit` -/

@[simp] theorem State.emit_valid (r : Request) : (s.emit r).valid = s.valid := rfl
@[simp] theorem State.emit_nodeCount (r : Request) : (s.emit r).nodeCount = s.nodeCount := rfl
@[simp] theorem State.emit_mWidth (r : Request) : (s.emit r).mWidth = s.mWidth := rfl
@[simp] theorem State.emit_vjtagAddr (r : Request) : (s.emit r).vjtagAddr = s.vjtagAddr := rfl
@[simp] theorem State.emit_stage (r : Request) : (s.emit r).stage = s.stage := rfl
@[simp] theorem State.emit_awaiting (r : Request) : (s.emit r).awaiting = s.awaiting := rfl
@[simp] theorem State.emit_nibCnt (r : Request) : (s.emit r).nibCnt = s.nibCnt := rfl
@[simp] theorem State.emit_nodeIdx (r : Request) : (s.emit r).nodeIdx = s.nodeIdx := rfl
@[simp] theorem State.emit_acc (r : Request) : (s.emit r).acc = s.acc := rfl
@[simp] theorem State.emit_found (r : Request) : (s.emit r).found = s.found := rfl
@[simp] theorem State.emit_cmdKind (r : Request) : (s.emit r).cmdKind = s.cmdKind := rfl
@[simp] theorem State.emit_cmdTap (r : Request) : (s.emit r).cmdTap = s.cmdTap := rfl
@[simp] theorem State.emit_cmdVir (r : Request) : (s.emit r).cmdVir = s.cmdVir := rfl
@[simp] theorem State.emit_mem (r : Request) : (s.emit r).mem = s.mem := rfl
@[simp] theorem State.emit_result (r : Request) : (s.emit r).result = s.result := rfl
@[simp] theorem State.emit_responded (r : Request) : (s.emit r).responded = s.responded := rfl
@[simp] theorem State.emit_errStage (r : Request) : (s.emit r).errStage = s.errStage := rfl
@[simp] theorem State.emit_errRaw (r : Request) : (s.emit r).errRaw = s.errRaw := rfl
@[simp] theorem State.emit_errRawValid (r : Request) : (s.emit r).errRawValid = s.errRawValid := rfl
@[simp] theorem State.emit_errToken (r : Request) : (s.emit r).errToken = s.errToken := rfl
@[simp] theorem State.emit_queue (r : Request) : (s.emit r).queue = s.queue ++ [r] := rfl
@[simp] theorem State.emit_far (r : Request) : (s.emit r).far = s.far := rfl
@[simp] theorem State.emit_env (r : Request) : (s.emit r).env = s.env := rfl
@[simp] theorem State.emit_out (r : Request) : (s.emit r).out = s.out.log (.request r) := rfl

/-! ### `State.returns` -/

@[simp] theorem State.returns_valid (r : Ret) : (s.returns r).valid = s.valid := rfl
@[simp] theorem State.returns_nodeCount (r : Ret) : (s.returns r).nodeCount = s.nodeCount := rfl
@[simp] theorem State.returns_mWidth (r : Ret) : (s.returns r).mWidth = s.mWidth := rfl
@[simp] theorem State.returns_vjtagAddr (r : Ret) : (s.returns r).vjtagAddr = s.vjtagAddr := rfl
@[simp] theorem State.returns_stage (r : Ret) : (s.returns r).stage = s.stage := rfl
@[simp] theorem State.returns_awaiting (r : Ret) : (s.returns r).awaiting = s.awaiting := rfl
@[simp] theorem State.returns_nibCnt (r : Ret) : (s.returns r).nibCnt = s.nibCnt := rfl
@[simp] theorem State.returns_nodeIdx (r : Ret) : (s.returns r).nodeIdx = s.nodeIdx := rfl
@[simp] theorem State.returns_acc (r : Ret) : (s.returns r).acc = s.acc := rfl
@[simp] theorem State.returns_found (r : Ret) : (s.returns r).found = s.found := rfl
@[simp] theorem State.returns_cmdKind (r : Ret) : (s.returns r).cmdKind = s.cmdKind := rfl
@[simp] theorem State.returns_cmdTap (r : Ret) : (s.returns r).cmdTap = s.cmdTap := rfl
@[simp] theorem State.returns_cmdVir (r : Ret) : (s.returns r).cmdVir = s.cmdVir := rfl
@[simp] theorem State.returns_mem (r : Ret) : (s.returns r).mem = s.mem := rfl
@[simp] theorem State.returns_result (r : Ret) : (s.returns r).result = s.result := rfl
@[simp] theorem State.returns_responded (r : Ret) : (s.returns r).responded = s.responded := rfl
@[simp] theorem State.returns_errStage (r : Ret) : (s.returns r).errStage = s.errStage := rfl
@[simp] theorem State.returns_errRaw (r : Ret) : (s.returns r).errRaw = s.errRaw := rfl
@[simp] theorem State.returns_errRawValid (r : Ret) : (s.returns r).errRawValid = s.errRawValid := rfl
@[simp] theorem State.returns_errToken (r : Ret) : (s.returns r).errToken = s.errToken := rfl
@[simp] theorem State.returns_queue (r : Ret) : (s.returns r).queue = s.queue := rfl
@[simp] theorem State.returns_far (r : Ret) : (s.returns r).far = s.far := rfl
@[simp] theorem State.returns_env (r : Ret) : (s.returns r).env = s.env := rfl
@[simp] theorem State.returns_out (r : Ret) : (s.returns r).out = { s.out with ret := r } := rfl

/-! ### `State.executed` -/

@[simp] theorem State.executed_valid : s.executed.valid = s.valid := rfl
@[simp] theorem State.executed_nodeCount : s.executed.nodeCount = s.nodeCount := rfl
@[simp] theorem State.executed_mWidth : s.executed.mWidth = s.mWidth := rfl
@[simp] theorem State.executed_vjtagAddr : s.executed.vjtagAddr = s.vjtagAddr := rfl
@[simp] theorem State.executed_stage : s.executed.stage = s.stage := rfl
@[simp] theorem State.executed_awaiting : s.executed.awaiting = false := rfl
@[simp] theorem State.executed_nibCnt : s.executed.nibCnt = s.nibCnt := rfl
@[simp] theorem State.executed_nodeIdx : s.executed.nodeIdx = s.nodeIdx := rfl
@[simp] theorem State.executed_acc : s.executed.acc = s.acc := rfl
@[simp] theorem State.executed_found : s.executed.found = s.found := rfl
@[simp] theorem State.executed_cmdKind : s.executed.cmdKind = s.cmdKind := rfl
@[simp] theorem State.executed_cmdTap : s.executed.cmdTap = s.cmdTap := rfl
@[simp] theorem State.executed_cmdVir : s.executed.cmdVir = s.cmdVir := rfl
@[simp] theorem State.executed_mem : s.executed.mem = (fillCaptures s.queue (s.env.dropAnswer, s.mem)).2 := rfl
@[simp] theorem State.executed_result : s.executed.result = s.result := rfl
@[simp] theorem State.executed_responded : s.executed.responded = s.responded := rfl
@[simp] theorem State.executed_errStage : s.executed.errStage = s.errStage := rfl
@[simp] theorem State.executed_errRaw : s.executed.errRaw = s.errRaw := rfl
@[simp] theorem State.executed_errRawValid : s.executed.errRawValid = s.errRawValid := rfl
@[simp] theorem State.executed_errToken : s.executed.errToken = s.errToken := rfl
@[simp] theorem State.executed_queue : s.executed.queue = [] := rfl
@[simp] theorem State.executed_far : s.executed.far = s.queue.foldl FarEnd.perform s.far := rfl
@[simp] theorem State.executed_env : s.executed.env = (fillCaptures s.queue (s.env.dropAnswer, s.mem)).1 := rfl
@[simp] theorem State.executed_out : s.executed.out = s.out := rfl

/-! ### `State.executeFailed` -/

@[simp] theorem State.executeFailed_valid : s.executeFailed.valid = s.valid := rfl
@[simp] theorem State.executeFailed_nodeCount : s.executeFailed.nodeCount = s.nodeCount := rfl
@[simp] theorem State.executeFailed_mWidth : s.executeFailed.mWidth = s.mWidth := rfl
@[simp] theorem State.executeFailed_vjtagAddr : s.executeFailed.vjtagAddr = s.vjtagAddr := rfl
@[simp] theorem State.executeFailed_stage : s.executeFailed.stage = s.stage := rfl
@[simp] theorem State.executeFailed_awaiting : s.executeFailed.awaiting = false := rfl
@[simp] theorem State.executeFailed_nibCnt : s.executeFailed.nibCnt = s.nibCnt := rfl
@[simp] theorem State.executeFailed_nodeIdx : s.executeFailed.nodeIdx = s.nodeIdx := rfl
@[simp] theorem State.executeFailed_acc : s.executeFailed.acc = s.acc := rfl
@[simp] theorem State.executeFailed_found : s.executeFailed.found = s.found := rfl
@[simp] theorem State.executeFailed_cmdKind : s.executeFailed.cmdKind = s.cmdKind := rfl
@[simp] theorem State.executeFailed_cmdTap : s.executeFailed.cmdTap = s.cmdTap := rfl
@[simp] theorem State.executeFailed_cmdVir : s.executeFailed.cmdVir = s.cmdVir := rfl
@[simp] theorem State.executeFailed_mem : s.executeFailed.mem = (loseCaptures s.queue (s.env.dropAnswer, s.mem)).2 := rfl
@[simp] theorem State.executeFailed_result : s.executeFailed.result = s.result := rfl
@[simp] theorem State.executeFailed_responded : s.executeFailed.responded = s.responded := rfl
@[simp] theorem State.executeFailed_errStage : s.executeFailed.errStage = s.errStage := rfl
@[simp] theorem State.executeFailed_errRaw : s.executeFailed.errRaw = s.errRaw := rfl
@[simp] theorem State.executeFailed_errRawValid : s.executeFailed.errRawValid = s.errRawValid := rfl
@[simp] theorem State.executeFailed_errToken : s.executeFailed.errToken = s.errToken := rfl
@[simp] theorem State.executeFailed_queue : s.executeFailed.queue = [] := rfl
@[simp] theorem State.executeFailed_far : s.executeFailed.far = .unknown := rfl
@[simp] theorem State.executeFailed_env : s.executeFailed.env = (loseCaptures s.queue (s.env.dropAnswer, s.mem)).1 := rfl
@[simp] theorem State.executeFailed_out : s.executeFailed.out = s.out := rfl

/-! ### `State.raise` -/

@[simp] theorem State.raise_valid (c : Condition) : (s.raise c).valid = (s.valid && !s.withdraws) := rfl
@[simp] theorem State.raise_nodeCount (c : Condition) : (s.raise c).nodeCount = s.nodeCount := rfl
@[simp] theorem State.raise_mWidth (c : Condition) : (s.raise c).mWidth = s.mWidth := rfl
@[simp] theorem State.raise_vjtagAddr (c : Condition) : (s.raise c).vjtagAddr = s.vjtagAddr := rfl
@[simp] theorem State.raise_stage (c : Condition) : (s.raise c).stage = .idle := rfl
@[simp] theorem State.raise_awaiting (c : Condition) : (s.raise c).awaiting = false := rfl
@[simp] theorem State.raise_nibCnt (c : Condition) : (s.raise c).nibCnt = s.nibCnt := rfl
@[simp] theorem State.raise_nodeIdx (c : Condition) : (s.raise c).nodeIdx = s.nodeIdx := rfl
@[simp] theorem State.raise_acc (c : Condition) : (s.raise c).acc = s.acc := rfl
@[simp] theorem State.raise_found (c : Condition) : (s.raise c).found = s.found := rfl
@[simp] theorem State.raise_cmdKind (c : Condition) : (s.raise c).cmdKind = s.cmdKind := rfl
@[simp] theorem State.raise_cmdTap (c : Condition) : (s.raise c).cmdTap = s.cmdTap := rfl
@[simp] theorem State.raise_cmdVir (c : Condition) : (s.raise c).cmdVir = s.cmdVir := rfl
@[simp] theorem State.raise_mem (c : Condition) : (s.raise c).mem = s.mem := rfl
@[simp] theorem State.raise_result (c : Condition) : (s.raise c).result = c.result := rfl
@[simp] theorem State.raise_responded (c : Condition) : (s.raise c).responded = true := rfl
@[simp] theorem State.raise_errStage (c : Condition) : (s.raise c).errStage = s.stage := rfl
@[simp] theorem State.raise_errRaw (c : Condition) : (s.raise c).errRaw = s.errRaw := rfl
@[simp] theorem State.raise_errRawValid (c : Condition) : (s.raise c).errRawValid = s.errRawValid := rfl
@[simp] theorem State.raise_errToken (c : Condition) : (s.raise c).errToken = c.token := rfl
@[simp] theorem State.raise_queue (c : Condition) : (s.raise c).queue = s.queue := rfl
@[simp] theorem State.raise_far (c : Condition) : (s.raise c).far = s.far := rfl
@[simp] theorem State.raise_env (c : Condition) : (s.raise c).env = s.env := rfl
@[simp] theorem State.raise_out (c : Condition) : (s.raise c).out = s.out.respond c.result := rfl

/-! ### `State.succeed` -/

@[simp] theorem State.succeed_valid : s.succeed.valid = s.valid := rfl
@[simp] theorem State.succeed_nodeCount : s.succeed.nodeCount = s.nodeCount := rfl
@[simp] theorem State.succeed_mWidth : s.succeed.mWidth = s.mWidth := rfl
@[simp] theorem State.succeed_vjtagAddr : s.succeed.vjtagAddr = s.vjtagAddr := rfl
@[simp] theorem State.succeed_stage : s.succeed.stage = .idle := rfl
@[simp] theorem State.succeed_awaiting : s.succeed.awaiting = false := rfl
@[simp] theorem State.succeed_nibCnt : s.succeed.nibCnt = s.nibCnt := rfl
@[simp] theorem State.succeed_nodeIdx : s.succeed.nodeIdx = s.nodeIdx := rfl
@[simp] theorem State.succeed_acc : s.succeed.acc = s.acc := rfl
@[simp] theorem State.succeed_found : s.succeed.found = s.found := rfl
@[simp] theorem State.succeed_cmdKind : s.succeed.cmdKind = s.cmdKind := rfl
@[simp] theorem State.succeed_cmdTap : s.succeed.cmdTap = s.cmdTap := rfl
@[simp] theorem State.succeed_cmdVir : s.succeed.cmdVir = s.cmdVir := rfl
@[simp] theorem State.succeed_mem : s.succeed.mem = s.mem := rfl
@[simp] theorem State.succeed_result : s.succeed.result = .success := rfl
@[simp] theorem State.succeed_responded : s.succeed.responded = true := rfl
@[simp] theorem State.succeed_errStage : s.succeed.errStage = s.errStage := rfl
@[simp] theorem State.succeed_errRaw : s.succeed.errRaw = s.errRaw := rfl
@[simp] theorem State.succeed_errRawValid : s.succeed.errRawValid = s.errRawValid := rfl
@[simp] theorem State.succeed_errToken : s.succeed.errToken = s.errToken := rfl
@[simp] theorem State.succeed_queue : s.succeed.queue = s.queue := rfl
@[simp] theorem State.succeed_far : s.succeed.far = s.far := rfl
@[simp] theorem State.succeed_env : s.succeed.env = s.env := rfl
@[simp] theorem State.succeed_out : s.succeed.out = s.out.respond .success := rfl

/-! ### `State.packIr` -/

@[simp] theorem State.packIr_valid (tap : Tap) (op : Nat) : (s.packIr tap op).valid = s.valid := rfl
@[simp] theorem State.packIr_nodeCount (tap : Tap) (op : Nat) : (s.packIr tap op).nodeCount = s.nodeCount := rfl
@[simp] theorem State.packIr_mWidth (tap : Tap) (op : Nat) : (s.packIr tap op).mWidth = s.mWidth := rfl
@[simp] theorem State.packIr_vjtagAddr (tap : Tap) (op : Nat) : (s.packIr tap op).vjtagAddr = s.vjtagAddr := rfl
@[simp] theorem State.packIr_stage (tap : Tap) (op : Nat) : (s.packIr tap op).stage = s.stage := rfl
@[simp] theorem State.packIr_awaiting (tap : Tap) (op : Nat) : (s.packIr tap op).awaiting = s.awaiting := rfl
@[simp] theorem State.packIr_nibCnt (tap : Tap) (op : Nat) : (s.packIr tap op).nibCnt = s.nibCnt := rfl
@[simp] theorem State.packIr_nodeIdx (tap : Tap) (op : Nat) : (s.packIr tap op).nodeIdx = s.nodeIdx := rfl
@[simp] theorem State.packIr_acc (tap : Tap) (op : Nat) : (s.packIr tap op).acc = s.acc := rfl
@[simp] theorem State.packIr_found (tap : Tap) (op : Nat) : (s.packIr tap op).found = s.found := rfl
@[simp] theorem State.packIr_cmdKind (tap : Tap) (op : Nat) : (s.packIr tap op).cmdKind = s.cmdKind := rfl
@[simp] theorem State.packIr_cmdTap (tap : Tap) (op : Nat) : (s.packIr tap op).cmdTap = s.cmdTap := rfl
@[simp] theorem State.packIr_cmdVir (tap : Tap) (op : Nat) : (s.packIr tap op).cmdVir = s.cmdVir := rfl
@[simp] theorem State.packIr_mem (tap : Tap) (op : Nat) : (s.packIr tap op).mem = { s.mem with irbuf := irBuffer s.mem.irbuf tap.irlen op } := rfl
@[simp] theorem State.packIr_result (tap : Tap) (op : Nat) : (s.packIr tap op).result = s.result := rfl
@[simp] theorem State.packIr_responded (tap : Tap) (op : Nat) : (s.packIr tap op).responded = s.responded := rfl
@[simp] theorem State.packIr_errStage (tap : Tap) (op : Nat) : (s.packIr tap op).errStage = s.errStage := rfl
@[simp] theorem State.packIr_errRaw (tap : Tap) (op : Nat) : (s.packIr tap op).errRaw = s.errRaw := rfl
@[simp] theorem State.packIr_errRawValid (tap : Tap) (op : Nat) : (s.packIr tap op).errRawValid = s.errRawValid := rfl
@[simp] theorem State.packIr_errToken (tap : Tap) (op : Nat) : (s.packIr tap op).errToken = s.errToken := rfl
@[simp] theorem State.packIr_queue (tap : Tap) (op : Nat) : (s.packIr tap op).queue = s.queue := rfl
@[simp] theorem State.packIr_far (tap : Tap) (op : Nat) : (s.packIr tap op).far = s.far := rfl
@[simp] theorem State.packIr_env (tap : Tap) (op : Nat) : (s.packIr tap op).env = s.env := rfl
@[simp] theorem State.packIr_out (tap : Tap) (op : Nat) : (s.packIr tap op).out = s.out := rfl

/-! ### `State.packZeros` -/

@[simp] theorem State.packZeros_valid : s.packZeros.valid = s.valid := rfl
@[simp] theorem State.packZeros_nodeCount : s.packZeros.nodeCount = s.nodeCount := rfl
@[simp] theorem State.packZeros_mWidth : s.packZeros.mWidth = s.mWidth := rfl
@[simp] theorem State.packZeros_vjtagAddr : s.packZeros.vjtagAddr = s.vjtagAddr := rfl
@[simp] theorem State.packZeros_stage : s.packZeros.stage = s.stage := rfl
@[simp] theorem State.packZeros_awaiting : s.packZeros.awaiting = s.awaiting := rfl
@[simp] theorem State.packZeros_nibCnt : s.packZeros.nibCnt = s.nibCnt := rfl
@[simp] theorem State.packZeros_nodeIdx : s.packZeros.nodeIdx = s.nodeIdx := rfl
@[simp] theorem State.packZeros_acc : s.packZeros.acc = s.acc := rfl
@[simp] theorem State.packZeros_found : s.packZeros.found = s.found := rfl
@[simp] theorem State.packZeros_cmdKind : s.packZeros.cmdKind = s.cmdKind := rfl
@[simp] theorem State.packZeros_cmdTap : s.packZeros.cmdTap = s.cmdTap := rfl
@[simp] theorem State.packZeros_cmdVir : s.packZeros.cmdVir = s.cmdVir := rfl
@[simp] theorem State.packZeros_mem : s.packZeros.mem = { s.mem with drbuf := Buffer.zeros 8 } := rfl
@[simp] theorem State.packZeros_result : s.packZeros.result = s.result := rfl
@[simp] theorem State.packZeros_responded : s.packZeros.responded = s.responded := rfl
@[simp] theorem State.packZeros_errStage : s.packZeros.errStage = s.errStage := rfl
@[simp] theorem State.packZeros_errRaw : s.packZeros.errRaw = s.errRaw := rfl
@[simp] theorem State.packZeros_errRawValid : s.packZeros.errRawValid = s.errRawValid := rfl
@[simp] theorem State.packZeros_errToken : s.packZeros.errToken = s.errToken := rfl
@[simp] theorem State.packZeros_queue : s.packZeros.queue = s.queue := rfl
@[simp] theorem State.packZeros_far : s.packZeros.far = s.far := rfl
@[simp] theorem State.packZeros_env : s.packZeros.env = s.env := rfl
@[simp] theorem State.packZeros_out : s.packZeros.out = s.out := rfl

/-! ### `State.packRouted` -/

@[simp] theorem State.packRouted_valid : s.packRouted.valid = s.valid := rfl
@[simp] theorem State.packRouted_nodeCount : s.packRouted.nodeCount = s.nodeCount := rfl
@[simp] theorem State.packRouted_mWidth : s.packRouted.mWidth = s.mWidth := rfl
@[simp] theorem State.packRouted_vjtagAddr : s.packRouted.vjtagAddr = s.vjtagAddr := rfl
@[simp] theorem State.packRouted_stage : s.packRouted.stage = s.stage := rfl
@[simp] theorem State.packRouted_awaiting : s.packRouted.awaiting = s.awaiting := rfl
@[simp] theorem State.packRouted_nibCnt : s.packRouted.nibCnt = s.nibCnt := rfl
@[simp] theorem State.packRouted_nodeIdx : s.packRouted.nodeIdx = s.nodeIdx := rfl
@[simp] theorem State.packRouted_acc : s.packRouted.acc = s.acc := rfl
@[simp] theorem State.packRouted_found : s.packRouted.found = s.found := rfl
@[simp] theorem State.packRouted_cmdKind : s.packRouted.cmdKind = s.cmdKind := rfl
@[simp] theorem State.packRouted_cmdTap : s.packRouted.cmdTap = s.cmdTap := rfl
@[simp] theorem State.packRouted_cmdVir : s.packRouted.cmdVir = s.cmdVir := rfl
@[simp] theorem State.packRouted_mem : s.packRouted.mem = s.mem.pack .drbuf 0 s.routedWidth s.routedWord := rfl
@[simp] theorem State.packRouted_result : s.packRouted.result = s.result := rfl
@[simp] theorem State.packRouted_responded : s.packRouted.responded = s.responded := rfl
@[simp] theorem State.packRouted_errStage : s.packRouted.errStage = s.errStage := rfl
@[simp] theorem State.packRouted_errRaw : s.packRouted.errRaw = s.errRaw := rfl
@[simp] theorem State.packRouted_errRawValid : s.packRouted.errRawValid = s.errRawValid := rfl
@[simp] theorem State.packRouted_errToken : s.packRouted.errToken = s.errToken := rfl
@[simp] theorem State.packRouted_queue : s.packRouted.queue = s.queue := rfl
@[simp] theorem State.packRouted_far : s.packRouted.far = s.far := rfl
@[simp] theorem State.packRouted_env : s.packRouted.env = s.env := rfl
@[simp] theorem State.packRouted_out : s.packRouted.out = s.out := rfl

/-! ### `State.acceptDiscover` -/

@[simp] theorem State.acceptDiscover_valid (tap : Tap) : (s.acceptDiscover tap).valid = false := rfl
@[simp] theorem State.acceptDiscover_nodeCount (tap : Tap) : (s.acceptDiscover tap).nodeCount = s.nodeCount := rfl
@[simp] theorem State.acceptDiscover_mWidth (tap : Tap) : (s.acceptDiscover tap).mWidth = s.mWidth := rfl
@[simp] theorem State.acceptDiscover_vjtagAddr (tap : Tap) : (s.acceptDiscover tap).vjtagAddr = s.vjtagAddr := rfl
@[simp] theorem State.acceptDiscover_stage (tap : Tap) : (s.acceptDiscover tap).stage = .s1Reset := rfl
@[simp] theorem State.acceptDiscover_awaiting (tap : Tap) : (s.acceptDiscover tap).awaiting = false := rfl
@[simp] theorem State.acceptDiscover_nibCnt (tap : Tap) : (s.acceptDiscover tap).nibCnt = s.nibCnt := rfl
@[simp] theorem State.acceptDiscover_nodeIdx (tap : Tap) : (s.acceptDiscover tap).nodeIdx = s.nodeIdx := rfl
@[simp] theorem State.acceptDiscover_acc (tap : Tap) : (s.acceptDiscover tap).acc = s.acc := rfl
@[simp] theorem State.acceptDiscover_found (tap : Tap) : (s.acceptDiscover tap).found = false := rfl
@[simp] theorem State.acceptDiscover_cmdKind (tap : Tap) : (s.acceptDiscover tap).cmdKind = .discover := rfl
@[simp] theorem State.acceptDiscover_cmdTap (tap : Tap) : (s.acceptDiscover tap).cmdTap = tap := rfl
@[simp] theorem State.acceptDiscover_cmdVir (tap : Tap) : (s.acceptDiscover tap).cmdVir = s.cmdVir := rfl
@[simp] theorem State.acceptDiscover_mem (tap : Tap) : (s.acceptDiscover tap).mem = s.mem.forHandle tap := rfl
@[simp] theorem State.acceptDiscover_result (tap : Tap) : (s.acceptDiscover tap).result = s.result := rfl
@[simp] theorem State.acceptDiscover_responded (tap : Tap) : (s.acceptDiscover tap).responded = s.responded := rfl
@[simp] theorem State.acceptDiscover_errStage (tap : Tap) : (s.acceptDiscover tap).errStage = s.errStage := rfl
@[simp] theorem State.acceptDiscover_errRaw (tap : Tap) : (s.acceptDiscover tap).errRaw = s.errRaw := rfl
@[simp] theorem State.acceptDiscover_errRawValid (tap : Tap) : (s.acceptDiscover tap).errRawValid = false := rfl
@[simp] theorem State.acceptDiscover_errToken (tap : Tap) : (s.acceptDiscover tap).errToken = s.errToken := rfl
@[simp] theorem State.acceptDiscover_queue (tap : Tap) : (s.acceptDiscover tap).queue = s.queue := rfl
@[simp] theorem State.acceptDiscover_far (tap : Tap) : (s.acceptDiscover tap).far = s.far := rfl
@[simp] theorem State.acceptDiscover_env (tap : Tap) : (s.acceptDiscover tap).env = s.env := rfl
@[simp] theorem State.acceptDiscover_out (tap : Tap) : (s.acceptDiscover tap).out = { s.out with ack := .accepted } := rfl

/-! ### `State.acceptRoute` -/

@[simp] theorem State.acceptRoute_valid (v : BitVec 32) (tap : Tap) : (s.acceptRoute v tap).valid = s.valid := rfl
@[simp] theorem State.acceptRoute_nodeCount (v : BitVec 32) (tap : Tap) : (s.acceptRoute v tap).nodeCount = s.nodeCount := rfl
@[simp] theorem State.acceptRoute_mWidth (v : BitVec 32) (tap : Tap) : (s.acceptRoute v tap).mWidth = s.mWidth := rfl
@[simp] theorem State.acceptRoute_vjtagAddr (v : BitVec 32) (tap : Tap) : (s.acceptRoute v tap).vjtagAddr = s.vjtagAddr := rfl
@[simp] theorem State.acceptRoute_stage (v : BitVec 32) (tap : Tap) : (s.acceptRoute v tap).stage = .r0Check := rfl
@[simp] theorem State.acceptRoute_awaiting (v : BitVec 32) (tap : Tap) : (s.acceptRoute v tap).awaiting = false := rfl
@[simp] theorem State.acceptRoute_nibCnt (v : BitVec 32) (tap : Tap) : (s.acceptRoute v tap).nibCnt = s.nibCnt := rfl
@[simp] theorem State.acceptRoute_nodeIdx (v : BitVec 32) (tap : Tap) : (s.acceptRoute v tap).nodeIdx = s.nodeIdx := rfl
@[simp] theorem State.acceptRoute_acc (v : BitVec 32) (tap : Tap) : (s.acceptRoute v tap).acc = s.acc := rfl
@[simp] theorem State.acceptRoute_found (v : BitVec 32) (tap : Tap) : (s.acceptRoute v tap).found = s.found := rfl
@[simp] theorem State.acceptRoute_cmdKind (v : BitVec 32) (tap : Tap) : (s.acceptRoute v tap).cmdKind = .route := rfl
@[simp] theorem State.acceptRoute_cmdTap (v : BitVec 32) (tap : Tap) : (s.acceptRoute v tap).cmdTap = tap := rfl
@[simp] theorem State.acceptRoute_cmdVir (v : BitVec 32) (tap : Tap) : (s.acceptRoute v tap).cmdVir = v := rfl
@[simp] theorem State.acceptRoute_mem (v : BitVec 32) (tap : Tap) : (s.acceptRoute v tap).mem = s.mem.forHandle tap := rfl
@[simp] theorem State.acceptRoute_result (v : BitVec 32) (tap : Tap) : (s.acceptRoute v tap).result = s.result := rfl
@[simp] theorem State.acceptRoute_responded (v : BitVec 32) (tap : Tap) : (s.acceptRoute v tap).responded = s.responded := rfl
@[simp] theorem State.acceptRoute_errStage (v : BitVec 32) (tap : Tap) : (s.acceptRoute v tap).errStage = s.errStage := rfl
@[simp] theorem State.acceptRoute_errRaw (v : BitVec 32) (tap : Tap) : (s.acceptRoute v tap).errRaw = s.errRaw := rfl
@[simp] theorem State.acceptRoute_errRawValid (v : BitVec 32) (tap : Tap) : (s.acceptRoute v tap).errRawValid = false := rfl
@[simp] theorem State.acceptRoute_errToken (v : BitVec 32) (tap : Tap) : (s.acceptRoute v tap).errToken = s.errToken := rfl
@[simp] theorem State.acceptRoute_queue (v : BitVec 32) (tap : Tap) : (s.acceptRoute v tap).queue = s.queue := rfl
@[simp] theorem State.acceptRoute_far (v : BitVec 32) (tap : Tap) : (s.acceptRoute v tap).far = s.far := rfl
@[simp] theorem State.acceptRoute_env (v : BitVec 32) (tap : Tap) : (s.acceptRoute v tap).env = s.env := rfl
@[simp] theorem State.acceptRoute_out (v : BitVec 32) (tap : Tap) : (s.acceptRoute v tap).out = { s.out with ack := .accepted } := rfl

/-! ### `State.notAccepted` -/

@[simp] theorem State.notAccepted_valid : s.notAccepted.valid = s.valid := rfl
@[simp] theorem State.notAccepted_nodeCount : s.notAccepted.nodeCount = s.nodeCount := rfl
@[simp] theorem State.notAccepted_mWidth : s.notAccepted.mWidth = s.mWidth := rfl
@[simp] theorem State.notAccepted_vjtagAddr : s.notAccepted.vjtagAddr = s.vjtagAddr := rfl
@[simp] theorem State.notAccepted_stage : s.notAccepted.stage = s.stage := rfl
@[simp] theorem State.notAccepted_awaiting : s.notAccepted.awaiting = s.awaiting := rfl
@[simp] theorem State.notAccepted_nibCnt : s.notAccepted.nibCnt = s.nibCnt := rfl
@[simp] theorem State.notAccepted_nodeIdx : s.notAccepted.nodeIdx = s.nodeIdx := rfl
@[simp] theorem State.notAccepted_acc : s.notAccepted.acc = s.acc := rfl
@[simp] theorem State.notAccepted_found : s.notAccepted.found = s.found := rfl
@[simp] theorem State.notAccepted_cmdKind : s.notAccepted.cmdKind = s.cmdKind := rfl
@[simp] theorem State.notAccepted_cmdTap : s.notAccepted.cmdTap = s.cmdTap := rfl
@[simp] theorem State.notAccepted_cmdVir : s.notAccepted.cmdVir = s.cmdVir := rfl
@[simp] theorem State.notAccepted_mem : s.notAccepted.mem = s.mem := rfl
@[simp] theorem State.notAccepted_result : s.notAccepted.result = s.result := rfl
@[simp] theorem State.notAccepted_responded : s.notAccepted.responded = s.responded := rfl
@[simp] theorem State.notAccepted_errStage : s.notAccepted.errStage = s.errStage := rfl
@[simp] theorem State.notAccepted_errRaw : s.notAccepted.errRaw = s.errRaw := rfl
@[simp] theorem State.notAccepted_errRawValid : s.notAccepted.errRawValid = s.errRawValid := rfl
@[simp] theorem State.notAccepted_errToken : s.notAccepted.errToken = s.errToken := rfl
@[simp] theorem State.notAccepted_queue : s.notAccepted.queue = s.queue := rfl
@[simp] theorem State.notAccepted_far : s.notAccepted.far = s.far := rfl
@[simp] theorem State.notAccepted_env : s.notAccepted.env = s.env := rfl
@[simp] theorem State.notAccepted_out : s.notAccepted.out = { s.out with ack := .notAccepted } := rfl

/-! ### `State.takeHubWord` -/

@[simp] theorem State.takeHubWord_valid (w : BitVec 32) (c m : BitVec 8) : (s.takeHubWord w c m).valid = s.valid := rfl
@[simp] theorem State.takeHubWord_nodeCount (w : BitVec 32) (c m : BitVec 8) : (s.takeHubWord w c m).nodeCount = c := rfl
@[simp] theorem State.takeHubWord_mWidth (w : BitVec 32) (c m : BitVec 8) : (s.takeHubWord w c m).mWidth = m := rfl
@[simp] theorem State.takeHubWord_vjtagAddr (w : BitVec 32) (c m : BitVec 8) : (s.takeHubWord w c m).vjtagAddr = s.vjtagAddr := rfl
@[simp] theorem State.takeHubWord_stage (w : BitVec 32) (c m : BitVec 8) : (s.takeHubWord w c m).stage = s.stage := rfl
@[simp] theorem State.takeHubWord_awaiting (w : BitVec 32) (c m : BitVec 8) : (s.takeHubWord w c m).awaiting = s.awaiting := rfl
@[simp] theorem State.takeHubWord_nibCnt (w : BitVec 32) (c m : BitVec 8) : (s.takeHubWord w c m).nibCnt = s.nibCnt := rfl
@[simp] theorem State.takeHubWord_nodeIdx (w : BitVec 32) (c m : BitVec 8) : (s.takeHubWord w c m).nodeIdx = s.nodeIdx := rfl
@[simp] theorem State.takeHubWord_acc (w : BitVec 32) (c m : BitVec 8) : (s.takeHubWord w c m).acc = s.acc := rfl
@[simp] theorem State.takeHubWord_found (w : BitVec 32) (c m : BitVec 8) : (s.takeHubWord w c m).found = s.found := rfl
@[simp] theorem State.takeHubWord_cmdKind (w : BitVec 32) (c m : BitVec 8) : (s.takeHubWord w c m).cmdKind = s.cmdKind := rfl
@[simp] theorem State.takeHubWord_cmdTap (w : BitVec 32) (c m : BitVec 8) : (s.takeHubWord w c m).cmdTap = s.cmdTap := rfl
@[simp] theorem State.takeHubWord_cmdVir (w : BitVec 32) (c m : BitVec 8) : (s.takeHubWord w c m).cmdVir = s.cmdVir := rfl
@[simp] theorem State.takeHubWord_mem (w : BitVec 32) (c m : BitVec 8) : (s.takeHubWord w c m).mem = s.mem := rfl
@[simp] theorem State.takeHubWord_result (w : BitVec 32) (c m : BitVec 8) : (s.takeHubWord w c m).result = s.result := rfl
@[simp] theorem State.takeHubWord_responded (w : BitVec 32) (c m : BitVec 8) : (s.takeHubWord w c m).responded = s.responded := rfl
@[simp] theorem State.takeHubWord_errStage (w : BitVec 32) (c m : BitVec 8) : (s.takeHubWord w c m).errStage = s.errStage := rfl
@[simp] theorem State.takeHubWord_errRaw (w : BitVec 32) (c m : BitVec 8) : (s.takeHubWord w c m).errRaw = w := rfl
@[simp] theorem State.takeHubWord_errRawValid (w : BitVec 32) (c m : BitVec 8) : (s.takeHubWord w c m).errRawValid = true := rfl
@[simp] theorem State.takeHubWord_errToken (w : BitVec 32) (c m : BitVec 8) : (s.takeHubWord w c m).errToken = s.errToken := rfl
@[simp] theorem State.takeHubWord_queue (w : BitVec 32) (c m : BitVec 8) : (s.takeHubWord w c m).queue = s.queue := rfl
@[simp] theorem State.takeHubWord_far (w : BitVec 32) (c m : BitVec 8) : (s.takeHubWord w c m).far = s.far := rfl
@[simp] theorem State.takeHubWord_env (w : BitVec 32) (c m : BitVec 8) : (s.takeHubWord w c m).env = s.env := rfl
@[simp] theorem State.takeHubWord_out (w : BitVec 32) (c m : BitVec 8) : (s.takeHubWord w c m).out = s.out := rfl

/-! ### `State.takeNodeWord` -/

@[simp] theorem State.takeNodeWord_valid (w : BitVec 32) : (s.takeNodeWord w).valid = s.valid := rfl
@[simp] theorem State.takeNodeWord_nodeCount (w : BitVec 32) : (s.takeNodeWord w).nodeCount = s.nodeCount := rfl
@[simp] theorem State.takeNodeWord_mWidth (w : BitVec 32) : (s.takeNodeWord w).mWidth = s.mWidth := rfl
@[simp] theorem State.takeNodeWord_vjtagAddr (w : BitVec 32) : (s.takeNodeWord w).vjtagAddr = s.vjtagAddr := rfl
@[simp] theorem State.takeNodeWord_stage (w : BitVec 32) : (s.takeNodeWord w).stage = s.stage := rfl
@[simp] theorem State.takeNodeWord_awaiting (w : BitVec 32) : (s.takeNodeWord w).awaiting = s.awaiting := rfl
@[simp] theorem State.takeNodeWord_nibCnt (w : BitVec 32) : (s.takeNodeWord w).nibCnt = s.nibCnt := rfl
@[simp] theorem State.takeNodeWord_nodeIdx (w : BitVec 32) : (s.takeNodeWord w).nodeIdx = s.nodeIdx := rfl
@[simp] theorem State.takeNodeWord_acc (w : BitVec 32) : (s.takeNodeWord w).acc = s.acc := rfl
@[simp] theorem State.takeNodeWord_found (w : BitVec 32) : (s.takeNodeWord w).found = s.found := rfl
@[simp] theorem State.takeNodeWord_cmdKind (w : BitVec 32) : (s.takeNodeWord w).cmdKind = s.cmdKind := rfl
@[simp] theorem State.takeNodeWord_cmdTap (w : BitVec 32) : (s.takeNodeWord w).cmdTap = s.cmdTap := rfl
@[simp] theorem State.takeNodeWord_cmdVir (w : BitVec 32) : (s.takeNodeWord w).cmdVir = s.cmdVir := rfl
@[simp] theorem State.takeNodeWord_mem (w : BitVec 32) : (s.takeNodeWord w).mem = s.mem := rfl
@[simp] theorem State.takeNodeWord_result (w : BitVec 32) : (s.takeNodeWord w).result = s.result := rfl
@[simp] theorem State.takeNodeWord_responded (w : BitVec 32) : (s.takeNodeWord w).responded = s.responded := rfl
@[simp] theorem State.takeNodeWord_errStage (w : BitVec 32) : (s.takeNodeWord w).errStage = s.errStage := rfl
@[simp] theorem State.takeNodeWord_errRaw (w : BitVec 32) : (s.takeNodeWord w).errRaw = w := rfl
@[simp] theorem State.takeNodeWord_errRawValid (w : BitVec 32) : (s.takeNodeWord w).errRawValid = s.errRawValid := rfl
@[simp] theorem State.takeNodeWord_errToken (w : BitVec 32) : (s.takeNodeWord w).errToken = s.errToken := rfl
@[simp] theorem State.takeNodeWord_queue (w : BitVec 32) : (s.takeNodeWord w).queue = s.queue := rfl
@[simp] theorem State.takeNodeWord_far (w : BitVec 32) : (s.takeNodeWord w).far = s.far := rfl
@[simp] theorem State.takeNodeWord_env (w : BitVec 32) : (s.takeNodeWord w).env = s.env := rfl
@[simp] theorem State.takeNodeWord_out (w : BitVec 32) : (s.takeNodeWord w).out = s.out := rfl

/-! ### `State.recordMatch` -/

@[simp] theorem State.recordMatch_valid : s.recordMatch.valid = s.valid := rfl
@[simp] theorem State.recordMatch_nodeCount : s.recordMatch.nodeCount = s.nodeCount := rfl
@[simp] theorem State.recordMatch_mWidth : s.recordMatch.mWidth = s.mWidth := rfl
@[simp] theorem State.recordMatch_vjtagAddr : s.recordMatch.vjtagAddr = (if s.found then s.vjtagAddr else s.nodeIdx) := rfl
@[simp] theorem State.recordMatch_stage : s.recordMatch.stage = s.stage := rfl
@[simp] theorem State.recordMatch_awaiting : s.recordMatch.awaiting = s.awaiting := rfl
@[simp] theorem State.recordMatch_nibCnt : s.recordMatch.nibCnt = s.nibCnt := rfl
@[simp] theorem State.recordMatch_nodeIdx : s.recordMatch.nodeIdx = s.nodeIdx := rfl
@[simp] theorem State.recordMatch_acc : s.recordMatch.acc = s.acc := rfl
@[simp] theorem State.recordMatch_found : s.recordMatch.found = true := rfl
@[simp] theorem State.recordMatch_cmdKind : s.recordMatch.cmdKind = s.cmdKind := rfl
@[simp] theorem State.recordMatch_cmdTap : s.recordMatch.cmdTap = s.cmdTap := rfl
@[simp] theorem State.recordMatch_cmdVir : s.recordMatch.cmdVir = s.cmdVir := rfl
@[simp] theorem State.recordMatch_mem : s.recordMatch.mem = s.mem := rfl
@[simp] theorem State.recordMatch_result : s.recordMatch.result = s.result := rfl
@[simp] theorem State.recordMatch_responded : s.recordMatch.responded = s.responded := rfl
@[simp] theorem State.recordMatch_errStage : s.recordMatch.errStage = s.errStage := rfl
@[simp] theorem State.recordMatch_errRaw : s.recordMatch.errRaw = s.errRaw := rfl
@[simp] theorem State.recordMatch_errRawValid : s.recordMatch.errRawValid = s.errRawValid := rfl
@[simp] theorem State.recordMatch_errToken : s.recordMatch.errToken = s.errToken := rfl
@[simp] theorem State.recordMatch_queue : s.recordMatch.queue = s.queue := rfl
@[simp] theorem State.recordMatch_far : s.recordMatch.far = s.far := rfl
@[simp] theorem State.recordMatch_env : s.recordMatch.env = s.env := rfl
@[simp] theorem State.recordMatch_out : s.recordMatch.out = s.out := rfl

/-! ### `State.startRead` -/

@[simp] theorem State.startRead_valid : s.startRead.valid = s.valid := rfl
@[simp] theorem State.startRead_nodeCount : s.startRead.nodeCount = s.nodeCount := rfl
@[simp] theorem State.startRead_mWidth : s.startRead.mWidth = s.mWidth := rfl
@[simp] theorem State.startRead_vjtagAddr : s.startRead.vjtagAddr = s.vjtagAddr := rfl
@[simp] theorem State.startRead_stage : s.startRead.stage = s.stage := rfl
@[simp] theorem State.startRead_awaiting : s.startRead.awaiting = s.awaiting := rfl
@[simp] theorem State.startRead_nibCnt : s.startRead.nibCnt = 0 := rfl
@[simp] theorem State.startRead_nodeIdx : s.startRead.nodeIdx = s.nodeIdx := rfl
@[simp] theorem State.startRead_acc : s.startRead.acc = 0 := rfl
@[simp] theorem State.startRead_found : s.startRead.found = s.found := rfl
@[simp] theorem State.startRead_cmdKind : s.startRead.cmdKind = s.cmdKind := rfl
@[simp] theorem State.startRead_cmdTap : s.startRead.cmdTap = s.cmdTap := rfl
@[simp] theorem State.startRead_cmdVir : s.startRead.cmdVir = s.cmdVir := rfl
@[simp] theorem State.startRead_mem : s.startRead.mem = s.mem := rfl
@[simp] theorem State.startRead_result : s.startRead.result = s.result := rfl
@[simp] theorem State.startRead_responded : s.startRead.responded = s.responded := rfl
@[simp] theorem State.startRead_errStage : s.startRead.errStage = s.errStage := rfl
@[simp] theorem State.startRead_errRaw : s.startRead.errRaw = s.errRaw := rfl
@[simp] theorem State.startRead_errRawValid : s.startRead.errRawValid = s.errRawValid := rfl
@[simp] theorem State.startRead_errToken : s.startRead.errToken = s.errToken := rfl
@[simp] theorem State.startRead_queue : s.startRead.queue = s.queue := rfl
@[simp] theorem State.startRead_far : s.startRead.far = s.far := rfl
@[simp] theorem State.startRead_env : s.startRead.env = s.env := rfl
@[simp] theorem State.startRead_out : s.startRead.out = s.out := rfl

/-! ### `State.takeNibble` -/

@[simp] theorem State.takeNibble_valid (x : Nat) : (s.takeNibble x).valid = s.valid := rfl
@[simp] theorem State.takeNibble_nodeCount (x : Nat) : (s.takeNibble x).nodeCount = s.nodeCount := rfl
@[simp] theorem State.takeNibble_mWidth (x : Nat) : (s.takeNibble x).mWidth = s.mWidth := rfl
@[simp] theorem State.takeNibble_vjtagAddr (x : Nat) : (s.takeNibble x).vjtagAddr = s.vjtagAddr := rfl
@[simp] theorem State.takeNibble_stage (x : Nat) : (s.takeNibble x).stage = s.stage := rfl
@[simp] theorem State.takeNibble_awaiting (x : Nat) : (s.takeNibble x).awaiting = s.awaiting := rfl
@[simp] theorem State.takeNibble_nibCnt (x : Nat) : (s.takeNibble x).nibCnt = s.nibCnt + 1 := rfl
@[simp] theorem State.takeNibble_nodeIdx (x : Nat) : (s.takeNibble x).nodeIdx = s.nodeIdx := rfl
@[simp] theorem State.takeNibble_acc (x : Nat) : (s.takeNibble x).acc = nibAcc s.acc x := rfl
@[simp] theorem State.takeNibble_found (x : Nat) : (s.takeNibble x).found = s.found := rfl
@[simp] theorem State.takeNibble_cmdKind (x : Nat) : (s.takeNibble x).cmdKind = s.cmdKind := rfl
@[simp] theorem State.takeNibble_cmdTap (x : Nat) : (s.takeNibble x).cmdTap = s.cmdTap := rfl
@[simp] theorem State.takeNibble_cmdVir (x : Nat) : (s.takeNibble x).cmdVir = s.cmdVir := rfl
@[simp] theorem State.takeNibble_mem (x : Nat) : (s.takeNibble x).mem = s.mem := rfl
@[simp] theorem State.takeNibble_result (x : Nat) : (s.takeNibble x).result = s.result := rfl
@[simp] theorem State.takeNibble_responded (x : Nat) : (s.takeNibble x).responded = s.responded := rfl
@[simp] theorem State.takeNibble_errStage (x : Nat) : (s.takeNibble x).errStage = s.errStage := rfl
@[simp] theorem State.takeNibble_errRaw (x : Nat) : (s.takeNibble x).errRaw = s.errRaw := rfl
@[simp] theorem State.takeNibble_errRawValid (x : Nat) : (s.takeNibble x).errRawValid = s.errRawValid := rfl
@[simp] theorem State.takeNibble_errToken (x : Nat) : (s.takeNibble x).errToken = s.errToken := rfl
@[simp] theorem State.takeNibble_queue (x : Nat) : (s.takeNibble x).queue = s.queue := rfl
@[simp] theorem State.takeNibble_far (x : Nat) : (s.takeNibble x).far = s.far := rfl
@[simp] theorem State.takeNibble_env (x : Nat) : (s.takeNibble x).env = s.env := rfl
@[simp] theorem State.takeNibble_out (x : Nat) : (s.takeNibble x).out = s.out := rfl

/-! ### `State.publish` -/

@[simp] theorem State.publish_valid : s.publish.valid = true := rfl
@[simp] theorem State.publish_nodeCount : s.publish.nodeCount = s.nodeCount := rfl
@[simp] theorem State.publish_mWidth : s.publish.mWidth = s.mWidth := rfl
@[simp] theorem State.publish_vjtagAddr : s.publish.vjtagAddr = s.vjtagAddr := rfl
@[simp] theorem State.publish_stage : s.publish.stage = .s9Handoff := rfl
@[simp] theorem State.publish_awaiting : s.publish.awaiting = s.awaiting := rfl
@[simp] theorem State.publish_nibCnt : s.publish.nibCnt = s.nibCnt := rfl
@[simp] theorem State.publish_nodeIdx : s.publish.nodeIdx = s.nodeIdx := rfl
@[simp] theorem State.publish_acc : s.publish.acc = s.acc := rfl
@[simp] theorem State.publish_found : s.publish.found = s.found := rfl
@[simp] theorem State.publish_cmdKind : s.publish.cmdKind = s.cmdKind := rfl
@[simp] theorem State.publish_cmdTap : s.publish.cmdTap = s.cmdTap := rfl
@[simp] theorem State.publish_cmdVir : s.publish.cmdVir = s.cmdVir := rfl
@[simp] theorem State.publish_mem : s.publish.mem = s.mem := rfl
@[simp] theorem State.publish_result : s.publish.result = s.result := rfl
@[simp] theorem State.publish_responded : s.publish.responded = s.responded := rfl
@[simp] theorem State.publish_errStage : s.publish.errStage = s.errStage := rfl
@[simp] theorem State.publish_errRaw : s.publish.errRaw = s.errRaw := rfl
@[simp] theorem State.publish_errRawValid : s.publish.errRawValid = s.errRawValid := rfl
@[simp] theorem State.publish_errToken : s.publish.errToken = s.errToken := rfl
@[simp] theorem State.publish_queue : s.publish.queue = s.queue := rfl
@[simp] theorem State.publish_far : s.publish.far = s.far := rfl
@[simp] theorem State.publish_env : s.publish.env = s.env := rfl
@[simp] theorem State.publish_out : s.publish.out = s.out := rfl

/-! ### `State.goto` -/

@[simp] theorem State.goto_valid (st : Stage) : (s.goto st).valid = s.valid := rfl
@[simp] theorem State.goto_nodeCount (st : Stage) : (s.goto st).nodeCount = s.nodeCount := rfl
@[simp] theorem State.goto_mWidth (st : Stage) : (s.goto st).mWidth = s.mWidth := rfl
@[simp] theorem State.goto_vjtagAddr (st : Stage) : (s.goto st).vjtagAddr = s.vjtagAddr := rfl
@[simp] theorem State.goto_stage (st : Stage) : (s.goto st).stage = st := rfl
@[simp] theorem State.goto_awaiting (st : Stage) : (s.goto st).awaiting = s.awaiting := rfl
@[simp] theorem State.goto_nibCnt (st : Stage) : (s.goto st).nibCnt = s.nibCnt := rfl
@[simp] theorem State.goto_nodeIdx (st : Stage) : (s.goto st).nodeIdx = s.nodeIdx := rfl
@[simp] theorem State.goto_acc (st : Stage) : (s.goto st).acc = s.acc := rfl
@[simp] theorem State.goto_found (st : Stage) : (s.goto st).found = s.found := rfl
@[simp] theorem State.goto_cmdKind (st : Stage) : (s.goto st).cmdKind = s.cmdKind := rfl
@[simp] theorem State.goto_cmdTap (st : Stage) : (s.goto st).cmdTap = s.cmdTap := rfl
@[simp] theorem State.goto_cmdVir (st : Stage) : (s.goto st).cmdVir = s.cmdVir := rfl
@[simp] theorem State.goto_mem (st : Stage) : (s.goto st).mem = s.mem := rfl
@[simp] theorem State.goto_result (st : Stage) : (s.goto st).result = s.result := rfl
@[simp] theorem State.goto_responded (st : Stage) : (s.goto st).responded = s.responded := rfl
@[simp] theorem State.goto_errStage (st : Stage) : (s.goto st).errStage = s.errStage := rfl
@[simp] theorem State.goto_errRaw (st : Stage) : (s.goto st).errRaw = s.errRaw := rfl
@[simp] theorem State.goto_errRawValid (st : Stage) : (s.goto st).errRawValid = s.errRawValid := rfl
@[simp] theorem State.goto_errToken (st : Stage) : (s.goto st).errToken = s.errToken := rfl
@[simp] theorem State.goto_queue (st : Stage) : (s.goto st).queue = s.queue := rfl
@[simp] theorem State.goto_far (st : Stage) : (s.goto st).far = s.far := rfl
@[simp] theorem State.goto_env (st : Stage) : (s.goto st).env = s.env := rfl
@[simp] theorem State.goto_out (st : Stage) : (s.goto st).out = s.out := rfl

/-! ### `State.await` -/

@[simp] theorem State.await_valid : s.await.valid = s.valid := rfl
@[simp] theorem State.await_nodeCount : s.await.nodeCount = s.nodeCount := rfl
@[simp] theorem State.await_mWidth : s.await.mWidth = s.mWidth := rfl
@[simp] theorem State.await_vjtagAddr : s.await.vjtagAddr = s.vjtagAddr := rfl
@[simp] theorem State.await_stage : s.await.stage = s.stage := rfl
@[simp] theorem State.await_awaiting : s.await.awaiting = true := rfl
@[simp] theorem State.await_nibCnt : s.await.nibCnt = s.nibCnt := rfl
@[simp] theorem State.await_nodeIdx : s.await.nodeIdx = s.nodeIdx := rfl
@[simp] theorem State.await_acc : s.await.acc = s.acc := rfl
@[simp] theorem State.await_found : s.await.found = s.found := rfl
@[simp] theorem State.await_cmdKind : s.await.cmdKind = s.cmdKind := rfl
@[simp] theorem State.await_cmdTap : s.await.cmdTap = s.cmdTap := rfl
@[simp] theorem State.await_cmdVir : s.await.cmdVir = s.cmdVir := rfl
@[simp] theorem State.await_mem : s.await.mem = s.mem := rfl
@[simp] theorem State.await_result : s.await.result = s.result := rfl
@[simp] theorem State.await_responded : s.await.responded = s.responded := rfl
@[simp] theorem State.await_errStage : s.await.errStage = s.errStage := rfl
@[simp] theorem State.await_errRaw : s.await.errRaw = s.errRaw := rfl
@[simp] theorem State.await_errRawValid : s.await.errRawValid = s.errRawValid := rfl
@[simp] theorem State.await_errToken : s.await.errToken = s.errToken := rfl
@[simp] theorem State.await_queue : s.await.queue = s.queue := rfl
@[simp] theorem State.await_far : s.await.far = s.far := rfl
@[simp] theorem State.await_env : s.await.env = s.env := rfl
@[simp] theorem State.await_out : s.await.out = s.out.log .execute := rfl

/-! ### `State.startEnum` -/

@[simp] theorem State.startEnum_valid : s.startEnum.valid = s.valid := rfl
@[simp] theorem State.startEnum_nodeCount : s.startEnum.nodeCount = s.nodeCount := rfl
@[simp] theorem State.startEnum_mWidth : s.startEnum.mWidth = s.mWidth := rfl
@[simp] theorem State.startEnum_vjtagAddr : s.startEnum.vjtagAddr = s.vjtagAddr := rfl
@[simp] theorem State.startEnum_stage : s.startEnum.stage = .s7Enum := rfl
@[simp] theorem State.startEnum_awaiting : s.startEnum.awaiting = s.awaiting := rfl
@[simp] theorem State.startEnum_nibCnt : s.startEnum.nibCnt = s.nibCnt := rfl
@[simp] theorem State.startEnum_nodeIdx : s.startEnum.nodeIdx = 0 := rfl
@[simp] theorem State.startEnum_acc : s.startEnum.acc = s.acc := rfl
@[simp] theorem State.startEnum_found : s.startEnum.found = s.found := rfl
@[simp] theorem State.startEnum_cmdKind : s.startEnum.cmdKind = s.cmdKind := rfl
@[simp] theorem State.startEnum_cmdTap : s.startEnum.cmdTap = s.cmdTap := rfl
@[simp] theorem State.startEnum_cmdVir : s.startEnum.cmdVir = s.cmdVir := rfl
@[simp] theorem State.startEnum_mem : s.startEnum.mem = s.mem := rfl
@[simp] theorem State.startEnum_result : s.startEnum.result = s.result := rfl
@[simp] theorem State.startEnum_responded : s.startEnum.responded = s.responded := rfl
@[simp] theorem State.startEnum_errStage : s.startEnum.errStage = s.errStage := rfl
@[simp] theorem State.startEnum_errRaw : s.startEnum.errRaw = s.errRaw := rfl
@[simp] theorem State.startEnum_errRawValid : s.startEnum.errRawValid = s.errRawValid := rfl
@[simp] theorem State.startEnum_errToken : s.startEnum.errToken = s.errToken := rfl
@[simp] theorem State.startEnum_queue : s.startEnum.queue = s.queue := rfl
@[simp] theorem State.startEnum_far : s.startEnum.far = s.far := rfl
@[simp] theorem State.startEnum_env : s.startEnum.env = s.env := rfl
@[simp] theorem State.startEnum_out : s.startEnum.out = s.out := rfl

/-! ### `State.handoff` -/

@[simp] theorem State.handoff_valid : s.handoff.valid = s.valid := rfl
@[simp] theorem State.handoff_nodeCount : s.handoff.nodeCount = s.nodeCount := rfl
@[simp] theorem State.handoff_mWidth : s.handoff.mWidth = s.mWidth := rfl
@[simp] theorem State.handoff_vjtagAddr : s.handoff.vjtagAddr = s.vjtagAddr := rfl
@[simp] theorem State.handoff_stage : s.handoff.stage = .raSelVir := rfl
@[simp] theorem State.handoff_awaiting : s.handoff.awaiting = s.awaiting := rfl
@[simp] theorem State.handoff_nibCnt : s.handoff.nibCnt = s.nibCnt := rfl
@[simp] theorem State.handoff_nodeIdx : s.handoff.nodeIdx = s.nodeIdx := rfl
@[simp] theorem State.handoff_acc : s.handoff.acc = s.acc := rfl
@[simp] theorem State.handoff_found : s.handoff.found = s.found := rfl
@[simp] theorem State.handoff_cmdKind : s.handoff.cmdKind = s.cmdKind := rfl
@[simp] theorem State.handoff_cmdTap : s.handoff.cmdTap = s.cmdTap := rfl
@[simp] theorem State.handoff_cmdVir : s.handoff.cmdVir = Config.dtmcsTag := rfl
@[simp] theorem State.handoff_mem : s.handoff.mem = s.mem := rfl
@[simp] theorem State.handoff_result : s.handoff.result = s.result := rfl
@[simp] theorem State.handoff_responded : s.handoff.responded = s.responded := rfl
@[simp] theorem State.handoff_errStage : s.handoff.errStage = s.errStage := rfl
@[simp] theorem State.handoff_errRaw : s.handoff.errRaw = s.errRaw := rfl
@[simp] theorem State.handoff_errRawValid : s.handoff.errRawValid = s.errRawValid := rfl
@[simp] theorem State.handoff_errToken : s.handoff.errToken = s.errToken := rfl
@[simp] theorem State.handoff_queue : s.handoff.queue = s.queue := rfl
@[simp] theorem State.handoff_far : s.handoff.far = s.far := rfl
@[simp] theorem State.handoff_env : s.handoff.env = s.env := rfl
@[simp] theorem State.handoff_out : s.handoff.out = s.out := rfl

end Sys2Proof.Machine
end

