-- ==== Sys2Proof/Laws/Ops.lean ====
section
/-!
SUPPORT. What the shared operations can do, said once: filling and losing capture buffers, executing the queue, taking a failure
condition. The provers cite these lemmas and do not unfold the operations.
-/

namespace Sys2Proof.Machine

/-! ### The completion channel -/

@[simp] theorem Env.dropAnswer_commands (e : Env) : e.dropAnswer.commands = e.commands := by
  unfold Env.dropAnswer; split <;> rfl

@[simp] theorem Env.dropAnswer_resetReq (e : Env) : e.dropAnswer.resetReq = e.resetReq := by
  unfold Env.dropAnswer; split <;> rfl

@[simp] theorem Env.dropAnswer_captures (e : Env) : e.dropAnswer.captures = e.captures := by
  unfold Env.dropAnswer; split <;> rfl

@[simp] theorem Env.dropCapture_commands (e : Env) : e.dropCapture.commands = e.commands := by
  unfold Env.dropCapture; split <;> rfl

@[simp] theorem Env.dropCapture_resetReq (e : Env) : e.dropCapture.resetReq = e.resetReq := by
  unfold Env.dropCapture; split <;> rfl

@[simp] theorem Env.dropCapture_answers (e : Env) : e.dropCapture.answers = e.answers := by
  unfold Env.dropCapture; split <;> rfl

theorem Env.nextAnswer_cons (c : List Command) (a : Answer) (as : List Answer) (cs : List Nat) (d : Nat) (r : Bool) :
    (Env.mk c (a :: as) cs d r).nextAnswer = a := rfl

/-- A request of the queue captures into the buffer `b`. -/
def capturesInto (q : List Request) (b : BufId) : Prop := ∃ w out, Request.shiftDr w out (some b) ∈ q

/-- Filling capture buffers takes nothing from the command channel and asks for no reset. -/
theorem fillCaptures_env (q : List Request) (p : Env × Memory) :
    (fillCaptures q p).1.commands = p.1.commands ∧ (fillCaptures q p).1.resetReq = p.1.resetReq ∧
      (fillCaptures q p).1.answers = p.1.answers := by
  induction q, p using fillCaptures.induct with
  | case1 p => simp [fillCaptures]
  | case2 w o b rs e m ih => simpa [fillCaptures] using ih
  | case3 w o rs p ih => simpa [fillCaptures] using ih
  | case4 t w v rs p ih => simpa [fillCaptures] using ih
  | case5 rs p ih => simpa [fillCaptures] using ih

theorem loseCaptures_env (q : List Request) (p : Env × Memory) :
    (loseCaptures q p).1.commands = p.1.commands ∧ (loseCaptures q p).1.resetReq = p.1.resetReq ∧
      (loseCaptures q p).1.answers = p.1.answers := by
  induction q, p using loseCaptures.induct with
  | case1 p => simp [loseCaptures]
  | case2 w o b rs e m ih => simpa [loseCaptures] using ih
  | case3 w o rs p ih => simpa [loseCaptures] using ih
  | case4 t w v rs p ih => simpa [loseCaptures] using ih
  | case5 rs p ih => simpa [loseCaptures] using ih

/-- Every buffer keeps its size, and one that no request captures into keeps its bytes. -/
theorem fillCaptures_mem (q : List Request) (p : Env × Memory) (b : BufId) :
    ((fillCaptures q p).2.get b).length = (p.2.get b).length ∧
      (¬ capturesInto q b → (fillCaptures q p).2.get b = p.2.get b) := by
  induction q, p using fillCaptures.induct with
  | case1 p => simp [fillCaptures]
  | case2 w o b' rs e m ih =>
    obtain ⟨h1, h2⟩ := ih
    refine ⟨?_, fun h => ?_⟩
    · rw [fillCaptures, h1]
      by_cases hb : b = b'
      · subst hb; simp [Memory.pack]
      · simp [Memory.pack, Memory.get_set_other _ _ _ _ hb]
    · have hb : b ≠ b' := fun e => h ⟨w, o, by simp [e]⟩
      rw [fillCaptures, h2 (fun ⟨w', o', hm⟩ => h ⟨w', o', List.mem_cons_of_mem _ hm⟩)]
      simp [Memory.pack, Memory.get_set_other _ _ _ _ hb]
  | case3 w o rs p ih =>
    exact ⟨ih.1, fun h => ih.2 fun ⟨w', o', hm⟩ => h ⟨w', o', List.mem_cons_of_mem _ hm⟩⟩
  | case4 t w v rs p ih =>
    exact ⟨ih.1, fun h => ih.2 fun ⟨w', o', hm⟩ => h ⟨w', o', List.mem_cons_of_mem _ hm⟩⟩
  | case5 rs p ih => exact ⟨ih.1, fun h => ih.2 fun ⟨w', o', hm⟩ => h ⟨w', o', List.mem_cons_of_mem _ hm⟩⟩

theorem loseCaptures_mem (q : List Request) (p : Env × Memory) (b : BufId) :
    ((loseCaptures q p).2.get b).length = (p.2.get b).length ∧
      (¬ capturesInto q b → (loseCaptures q p).2.get b = p.2.get b) := by
  induction q, p using loseCaptures.induct with
  | case1 p => simp [loseCaptures]
  | case2 w o b' rs e m ih =>
    obtain ⟨h1, h2⟩ := ih
    refine ⟨?_, fun h => ?_⟩
    · rw [loseCaptures, h1]
      by_cases hb : b = b'
      · subst hb; simp [Memory.pack]
      · simp [Memory.pack, Memory.get_set_other _ _ _ _ hb]
    · have hb : b ≠ b' := fun e => h ⟨w, o, by simp [e]⟩
      rw [loseCaptures, h2 (fun ⟨w', o', hm⟩ => h ⟨w', o', List.mem_cons_of_mem _ hm⟩)]
      simp [Memory.pack, Memory.get_set_other _ _ _ _ hb]
  | case3 w o rs p ih =>
    exact ⟨ih.1, fun h => ih.2 fun ⟨w', o', hm⟩ => h ⟨w', o', List.mem_cons_of_mem _ hm⟩⟩
  | case4 t w v rs p ih =>
    exact ⟨ih.1, fun h => ih.2 fun ⟨w', o', hm⟩ => h ⟨w', o', List.mem_cons_of_mem _ hm⟩⟩
  | case5 rs p ih => exact ⟨ih.1, fun h => ih.2 fun ⟨w', o', hm⟩ => h ⟨w', o', List.mem_cons_of_mem _ hm⟩⟩

theorem fillCaptures_wf (q : List Request) (p : Env × Memory) (h : p.2.wf = true) : (fillCaptures q p).2.wf = true := by
  rw [Memory.wf_iff] at h ⊢
  exact ⟨(fillCaptures_mem q p .drbuf).1.trans h.1, (fillCaptures_mem q p .capbuf).1.trans h.2⟩

theorem loseCaptures_wf (q : List Request) (p : Env × Memory) (h : p.2.wf = true) : (loseCaptures q p).2.wf = true := by
  rw [Memory.wf_iff] at h ⊢
  exact ⟨(loseCaptures_mem q p .drbuf).1.trans h.1, (loseCaptures_mem q p .capbuf).1.trans h.2⟩

/-! ### Executing the queue -/

theorem answered_success (s : State) (h : s.env.nextAnswer = .success) : s.answered = .go s.executed := by
  unfold State.answered; rw [h]

theorem answered_failure (s : State) (tok : Token) (h : s.env.nextAnswer = .transportError tok) :
    s.answered = .ended (s.executeFailed.raise (.transportError (.chain tok))) := by
  unfold State.answered; rw [h]

/-- Everything `execute_queue` can do. -/
theorem answered_cases (s : State) :
    (s.env.nextAnswer = .success ∧ s.answered = .go s.executed) ∨
      ∃ tok, s.env.nextAnswer = .transportError tok ∧
        s.answered = .ended (s.executeFailed.raise (.transportError (.chain tok))) := by
  cases h : s.env.nextAnswer with
  | success => exact .inl ⟨rfl, answered_success s h⟩
  | transportError tok => exact .inr ⟨tok, rfl, answered_failure s tok h⟩

/-- Executing the queue, answered either way, keeps the size of every buffer. -/
theorem answered_length (s : State) (b : BufId) : (s.answered.state.mem.get b).length = (s.mem.get b).length := by
  rcases answered_cases s with ⟨-, h⟩ | ⟨tok, -, h⟩ <;> rw [h]
  · exact (fillCaptures_mem _ _ b).1
  · exact (loseCaptures_mem _ _ b).1

/-- Everything one request and its `execute_queue` can do. -/
theorem serve_success (s : State) (r : Request) (h : s.env.nextAnswer = .success) : s.serve r = .go (s.emit r).await.executed :=
  answered_success _ h

theorem serve_failure (s : State) (r : Request) (tok : Token) (h : s.env.nextAnswer = .transportError tok) :
    s.serve r = .ended ((s.emit r).await.executeFailed.raise (.transportError (.chain tok))) := answered_failure _ tok h

theorem executed_commands (s : State) : s.executed.env.commands = s.env.commands := by
  rw [State.executed_env, (fillCaptures_env _ _).1]; simp

theorem executed_resetReq (s : State) : s.executed.env.resetReq = s.env.resetReq := by
  rw [State.executed_env, (fillCaptures_env _ _).2.1]; simp

theorem executed_answers (s : State) : s.executed.env.answers = s.env.dropAnswer.answers := by
  rw [State.executed_env, (fillCaptures_env _ _).2.2]

theorem executed_wf (s : State) (h : s.mem.wf = true) : s.executed.mem.wf = true := fillCaptures_wf _ _ h

theorem executeFailed_commands (s : State) : s.executeFailed.env.commands = s.env.commands := by
  rw [State.executeFailed_env, (loseCaptures_env _ _).1]; simp

theorem executeFailed_resetReq (s : State) : s.executeFailed.env.resetReq = s.env.resetReq := by
  rw [State.executeFailed_env, (loseCaptures_env _ _).2.1]; simp

theorem executeFailed_wf (s : State) (h : s.mem.wf = true) : s.executeFailed.mem.wf = true :=
  loseCaptures_wf _ _ h

@[simp] theorem Env.nextCapture_cons (c : List Command) (as : List Answer) (x : Nat) (cs : List Nat) (d : Nat) (r : Bool) :
    (Env.mk c as (x :: cs) d r).nextCapture = x := rfl

/-- One queued capture of `w` bits fills the low `w` bits of its buffer and no other bit. -/
theorem executed_capture (s : State) (w : Nat) (out : Option Nat) (b : BufId) (hq : s.queue = [.shiftDr w out (some b)]) :
    s.executed.mem = s.mem.pack b 0 w s.env.dropAnswer.nextCapture ∧ s.executed.env = s.env.dropAnswer.dropCapture := by
  rw [State.executed_mem, State.executed_env, hq]
  exact ⟨rfl, rfl⟩

/-- A queue that captures nothing leaves memory as it was. -/
theorem executed_no_capture (s : State) (h : ∀ b, ¬ capturesInto s.queue b) (b : BufId) : s.executed.mem.get b = s.mem.get b := by
  rw [State.executed_mem]; exact (fillCaptures_mem _ _ b).2 (h b)

/-! ### Memory -/

@[simp] theorem Memory.forHandle_irbuf (m : Memory) (tap : Tap) : (m.forHandle tap).irbuf = m.irbuf.resize (irBytes tap.irlen) := rfl
@[simp] theorem Memory.forHandle_drbuf (m : Memory) (tap : Tap) : (m.forHandle tap).drbuf = m.drbuf := rfl
@[simp] theorem Memory.forHandle_capbuf (m : Memory) (tap : Tap) : (m.forHandle tap).capbuf = m.capbuf := rfl
@[simp] theorem Memory.forHandle_caller (m : Memory) (tap : Tap) : (m.forHandle tap).caller = m.caller := rfl

/-- The size of `IRBUF` is no part of the form that memory keeps. -/
@[simp] theorem Memory.wf_forHandle (m : Memory) (tap : Tap) : (m.forHandle tap).wf = m.wf := rfl

@[simp] theorem Memory.forHandle_irbuf_length (m : Memory) (tap : Tap) : (m.forHandle tap).irbuf.length = irBytes tap.irlen := by
  simp

/-- A handle of the size `IRBUF` has already changes nothing. -/
theorem Memory.forHandle_self (m : Memory) (tap : Tap) (h : m.irbuf.length = irBytes tap.irlen) : m.forHandle tap = m := by
  unfold Memory.forHandle; rw [← h, Buffer.resize_self]

theorem packIr_wf (s : State) (tap : Tap) (op : Nat) (h : s.mem.wf = true) : (s.packIr tap op).mem.wf = true := h

theorem packZeros_wf (s : State) (h : s.mem.wf = true) : s.packZeros.mem.wf = true := by
  rw [Memory.wf_iff] at h ⊢; exact ⟨rfl, h.2⟩

theorem packRouted_wf (s : State) (h : s.mem.wf = true) : s.packRouted.mem.wf = true := Memory.wf_pack _ _ _ _ _ h

/-! ### Host reads -/

/-- When the host may read the fields of the Discovery Result. -/
theorem State.resultReadable_iff (s : State) :
    s.resultReadable = true ↔ s.valid = true ∧ (s.stage = .idle ∨ s.cmdKind = .route) := by
  cases hk : s.cmdKind <;> simp [State.resultReadable, State.running, hk]

end Sys2Proof.Machine
end

