-- ==== Sys2Proof/Laws/PerInstr.lean ====
section
/-!
SUPPORT. Statements for all instructions, one lemma per constructor. Family RoundTrip: the word that a well-formed instruction
is encoded as decodes, on its channel, to that instruction.
-/

namespace Sys2Proof.Laws.RoundTrip

open Sys2Proof.Machine

/-- Decoding what an instruction is encoded as gives it back. -/
def Statement (i : Instr) : Prop := WellFormed i → ∀ ch w, encode i = some (ch, w) → decode ch w = .ok i

/-- An instruction without a bit pattern: nothing to decode. -/
theorem of_no_pattern (i : Instr) (h : encode i = none) : Statement i := by
  intro _ ch w he; rw [h] at he; cases he

/-- An instruction with one word: decoding that word suffices. -/
theorem of_word (i : Instr) (ch : Channel) (w : RawWord) (h : encode i = some (ch, w))
    (hd : WellFormed i → decode ch w = .ok i) : Statement i := by
  intro hw ch' w' he; rw [h] at he; cases he; exact hd hw

/-- A check that passes. -/
theorem of_require (ok : Bool) (p : WfProblem) (h : require ok p = none) : ok = true := by
  unfold require at h; split at h
  · assumption
  · cases h

theorem discover (tap : Tap) : Statement (.discover tap) := of_word _ _ _ rfl fun _ => rfl

theorem route (virVal : BitVec 32) (tap : Tap) : Statement (.route virVal tap) := by
  refine of_word _ _ _ rfl fun _ => ?_
  have hv := virVal.isLt
  have hn : (BitVec.ofNat 34 (virVal.toNat * 4 + 2)).toNat = virVal.toNat * 4 + 2 := by
    rw [BitVec.toNat_ofNat]; omega
  have h2 : (BitVec.ofNat 34 (virVal.toNat * 4 + 2)).extractLsb' 0 2 = 2#2 := by
    apply BitVec.eq_of_toNat_eq
    rw [BitVec.extractLsb'_toNat, hn, Nat.shiftRight_eq_div_pow]
    show _ = 2
    omega
  have h3 : (BitVec.ofNat 34 (virVal.toNat * 4 + 2)).extractLsb' 2 32 = virVal := by
    apply BitVec.eq_of_toNat_eq
    rw [BitVec.extractLsb'_toNat, hn, Nat.shiftRight_eq_div_pow]
    omega
  unfold decode
  rw [if_neg (by show ¬ 2 ^ 34 ≤ virVal.toNat * 4 + 2; omega)]
  show Except.ok (decodeCommand (BitVec.ofNat 34 (virVal.toNat * 4 + 2)) tap) = _
  unfold decodeCommand
  rw [h2, h3]; rfl

theorem cmdReserved00 : Statement .cmdReserved00 := of_word _ _ _ rfl fun _ => rfl

theorem cmdReserved11 : Statement .cmdReserved11 := of_word _ _ _ rfl fun _ => rfl

theorem user0 (irlen : Nat) : Statement (.user0 irlen) := by
  refine of_word _ _ _ rfl fun hw => ?_
  have h4 : 4 ≤ irlen := of_decide_eq_true (of_require _ _ hw)
  unfold decode
  rw [if_neg (Nat.not_le.2 (opcode_lt irlen Config.user0 h4 (by decide)))]
  rfl

theorem user1 (irlen : Nat) : Statement (.user1 irlen) := by
  refine of_word _ _ _ rfl fun hw => ?_
  have h4 : 4 ≤ irlen := of_decide_eq_true (of_require _ _ hw)
  unfold decode
  rw [if_neg (Nat.not_le.2 (opcode_lt irlen Config.user1 h4 (by decide)))]
  rfl

theorem resetTap : Statement .resetTap := of_word _ _ _ rfl fun _ => rfl

theorem shiftIr (tap : Tap) (bitWidth : Nat) (value : BufId) : Statement (.shiftIr tap bitWidth value) :=
  of_word _ _ _ rfl fun _ => rfl

theorem shiftDr (bitWidth : Nat) (out cap : Option BufId) : Statement (.shiftDr bitWidth out cap) :=
  of_word _ _ _ rfl fun _ => rfl

theorem execute : Statement .execute := of_word _ _ _ rfl fun _ => rfl

theorem pack (buf : BufId) (off w : Nat) (value : BitVec 64) : Statement (.pack buf off w value) := of_no_pattern _ rfl

theorem unpack (buf : BufId) (off w : Nat) : Statement (.unpack buf off w) := of_no_pattern _ rfl

theorem afw (nodeCount : Nat) : Statement (.afw nodeCount) := of_no_pattern _ rfl

theorem nibacc (acc : BitVec 32) (x : Nat) : Statement (.nibacc acc x) := of_no_pattern _ rfl

theorem asm32 (x0 x1 x2 x3 x4 x5 x6 x7 : Nat) : Statement (.asm32 x0 x1 x2 x3 x4 x5 x6 x7) := of_no_pattern _ rfl

theorem decHub (w : BitVec 32) : Statement (.decHub w) := of_no_pattern _ rfl

theorem decNode (w : BitVec 32) : Statement (.decNode w) := of_no_pattern _ rfl

theorem mkvir (addr : BitVec 8) (n m : Nat) (virVal : BitVec 32) : Statement (.mkvir addr n m virVal) := of_no_pattern _ rfl

theorem selVir (tap : Tap) : Statement (.selVir tap) := of_no_pattern _ rfl

theorem selVdr (tap : Tap) : Statement (.selVdr tap) := of_no_pattern _ rfl

theorem nibscan : Statement .nibscan := of_no_pattern _ rfl

theorem read32 : Statement .read32 := of_no_pattern _ rfl

theorem hubAddr0 : Statement .hubAddr0 := of_no_pattern _ rfl

/-- A 32-bit word passes the width check and comes back from its bits. -/
theorem decode_hub_word (w : BitVec 32) : decode .hubRegister ⟨32, w.toNat⟩ = .ok (decodeHub w) := by
  unfold decode
  rw [if_neg (Nat.not_le.2 w.isLt)]
  show Except.ok (decodeHub (BitVec.ofNat 32 w.toNat)) = _
  rw [BitVec.ofNat_toNat, BitVec.setWidth_eq]

theorem decode_node_word (w : BitVec 32) : decode .nodeRegister ⟨32, w.toNat⟩ = .ok (decodeNode w) := by
  unfold decode
  rw [if_neg (Nat.not_le.2 w.isLt)]
  show Except.ok (decodeNode (BitVec.ofNat 32 w.toNat)) = _
  rw [BitVec.ofNat_toNat, BitVec.setWidth_eq]

theorem hubCfg (version : BitVec 5) (nodeCount : BitVec 8) (mfg : BitVec 11) (m : BitVec 8) :
    Statement (.hubCfg version nodeCount mfg m) := by
  refine of_word _ _ _ rfl fun _ => ?_
  rw [registerWord_eq, decode_hub_word]
  obtain ⟨h1, h2, h3, h4⟩ := extract_joinFields version nodeCount mfg m
  unfold decodeHub; rw [h1, h2, h3, h4]

theorem nodeInfo (version : BitVec 5) (nodeId : BitVec 8) (mfg : BitVec 11) (inst : BitVec 8) :
    Statement (.nodeInfo version nodeId mfg inst) := by
  refine of_word _ _ _ rfl fun hw => ?_
  have hn : nodeId ≠ Config.vjtagNodeId := of_decide_eq_true (of_require _ _ hw)
  rw [registerWord_eq, decode_node_word]
  obtain ⟨h1, h2, h3, h4⟩ := extract_joinFields version nodeId mfg inst
  unfold decodeNode; rw [h1, h2, h3, h4, if_neg hn]

theorem nodeInfoVjtag (version : BitVec 5) (mfg : BitVec 11) (inst : BitVec 8) :
    Statement (.nodeInfoVjtag version mfg inst) := by
  refine of_word _ _ _ rfl fun _ => ?_
  rw [registerWord_eq, decode_node_word]
  obtain ⟨h1, h2, h3, h4⟩ := extract_joinFields version Config.vjtagNodeId mfg inst
  unfold decodeNode; rw [h1, h2, h3, h4, if_pos rfl]

theorem routedVir (n m addr value : Nat) : Statement (.routedVir n m addr value) := by
  refine of_word _ _ _ rfl fun hw => ?_
  obtain ⟨hw1, hw2⟩ := Option.or_eq_none_iff.1 hw
  obtain ⟨hw2, hw3⟩ := Option.or_eq_none_iff.1 hw2
  have h64 : 1 ≤ n + m ∧ n + m ≤ 64 := of_decide_eq_true (of_require _ _ hw1)
  have ha : addr < 2 ^ n := of_decide_eq_true (of_require _ _ hw2)
  have hv : value < 2 ^ m := of_decide_eq_true (of_require _ _ hw3)
  have hlt : addr * 2 ^ m + value < 2 ^ (n + m) := by rw [← mkVir_of_fits addr n m value ha hv]; exact mkVir_lt _ _ _ _
  unfold decode
  rw [if_neg (Nat.not_le.2 hlt)]
  show (if 1 ≤ n + m ∧ n + m ≤ 64 then ofWidth ⟨n + m, addr * 2 ^ m + value⟩ (n + m)
    (.ok (.routedVir n m ((addr * 2 ^ m + value) >>> m) ((addr * 2 ^ m + value) % 2 ^ m))) else _) = _
  have hd : (addr * 2 ^ m + value) >>> m = addr := by
    rw [Nat.shiftRight_eq_div_pow, Nat.add_comm, Nat.add_mul_div_right _ _ (Nat.two_pow_pos m), Nat.div_eq_of_lt hv, Nat.zero_add]
  have hm : (addr * 2 ^ m + value) % 2 ^ m = value := by
    rw [Nat.add_comm, Nat.add_mul_mod_self_right, Nat.mod_eq_of_lt hv]
  rw [if_pos h64, hd, hm]
  unfold ofWidth; rw [if_pos rfl]

theorem zeroFill : Statement .zeroFill := of_word _ _ _ rfl fun _ => rfl

theorem nibble (x : BitVec 4) : Statement (.nibble x) := by
  refine of_word _ _ _ rfl fun _ => ?_
  unfold decode
  rw [if_neg (Nat.not_le.2 x.isLt)]
  show Except.ok (Instr.nibble (BitVec.ofNat 4 x.toNat)) = _
  rw [BitVec.ofNat_toNat, BitVec.setWidth_eq]

theorem rspSuccess : Statement .rspSuccess := of_word _ _ _ rfl fun _ => rfl

theorem rspNoVjtagFound : Statement .rspNoVjtagFound := of_word _ _ _ rfl fun _ => rfl

theorem rspTransportError (token : ErrToken) : Statement (.rspTransportError token) := of_word _ _ _ rfl fun _ => rfl

theorem rspNotDiscovered : Statement .rspNotDiscovered := of_word _ _ _ rfl fun _ => rfl

end Sys2Proof.Laws.RoundTrip
end

