-- ==== Sys2Proof/Laws/Step.lean ====
section
/-!
SUPPORT. What one step can do, said once: `Moves s t` lists every transaction with its guard and its next state, and
`step_moves` says that a step which answers a next state is one of them. Invariants and whole-machine rules are proved by cases
on it, without unfolding the step.
-/

namespace Sys2Proof.Machine

/-- The state with the commands `cs` left on the channel. -/
def State.withCommands (s : State) (cs : List Command) : State := { s with env := { s.env with commands := cs } }

/-- What one complete Node Info Register does (spec 42_discovery.md R197, R198). -/
def State.takeNode (s : State) (w : BitVec 32) : State :=
  if w.extractLsb' 19 8 = Config.vjtagNodeId then (s.takeNodeWord w).recordMatch else s.takeNodeWord w

theorem exec_decodeHub (s : State) (w : BitVec 32) :
    exec (decodeHub w) s = .next (s.takeHubWord w (w.extractLsb' 19 8) (w.extractLsb' 0 8)) := by
  show Host.Outcome.next (s.takeHubWord (joinFields _ _ _ _) _ _) = _
  rw [joinFields_extract]

theorem exec_decodeNode (s : State) (w : BitVec 32) : exec (decodeNode w) s = .next (s.takeNode w) := by
  unfold decodeNode State.takeNode
  by_cases h : w.extractLsb' 19 8 = Config.vjtagNodeId
  · rw [if_pos h, if_pos h]
    show Host.Outcome.next (s.takeNodeWord (joinFields _ Config.vjtagNodeId _ _)).recordMatch = _
    rw [← h, joinFields_extract]
  · rw [if_neg h, if_neg h]
    show Host.Outcome.next (s.takeNodeWord (joinFields _ _ _ _)) = _
    rw [joinFields_extract]

/-- Emission of a select: for a legal handle the opcode is shifted, zero-extended to `IRLEN` bits. -/
theorem issueSelect_eq (s : State) (op : Nat) (hop : op < 16) (h : 4 ≤ s.cmdTap.irlen) :
    issueSelect s op = .next ((s.packIr s.cmdTap op).emit (selectRequest s.cmdTap op)).await := by
  have hc : s.cmdTap.irlen ≤ Buffer.capacity ((s.packIr s.cmdTap op).mem.get .irbuf) := capacity_irBuffer _ _ _
  have hv : (s.packIr s.cmdTap op).irRequest s.cmdTap s.cmdTap.irlen .irbuf = selectRequest s.cmdTap op := by
    show Request.shiftIr _ _ (Buffer.unpack (irBuffer _ _ _) 0 _) = _
    rw [unpack_irBuffer _ _ _ (opcode_lt _ _ h hop)]; rfl
  have hf : (s.packIr s.cmdTap op).fits s.cmdTap.irlen (some .irbuf) = true := decide_eq_true hc
  show onNext (execShiftIr _ _ _ _) _ = _
  unfold execShiftIr Config.minIrlen
  rw [if_neg (by omega), if_pos hf, hv]; rfl

theorem issueSelect_next (s t : State) (op : Nat) (hop : op < 16) (h : issueSelect s op = .next t) :
    4 ≤ s.cmdTap.irlen ∧ t = ((s.packIr s.cmdTap op).emit (selectRequest s.cmdTap op)).await := by
  by_cases h4 : 4 ≤ s.cmdTap.irlen
  · rw [issueSelect_eq s op hop h4] at h; cases h; exact ⟨h4, rfl⟩
  · change onNext (execShiftIr _ _ _ _) _ = _ at h
    unfold execShiftIr Config.minIrlen at h
    rw [if_pos (by omega)] at h; cases h

theorem issueNibble_eq (s : State) (h : s.mem.wf = true) : issueNibble s = .next (s.emit nibbleRequest).await := by
  have hc := ((Memory.wf_iff _).1 h).2
  show onNext (execShiftDr _ _ _ _) _ = _
  unfold execShiftDr State.fits Buffer.capacity Config.nibbleBits Memory.get
  simp [hc, onNext, State.drRequest, nibbleRequest]

theorem issueNibble_next (s t : State) (h : issueNibble s = .next t) : t = (s.emit nibbleRequest).await := by
  change onNext (execShiftDr _ _ _ _) _ = _ at h
  unfold execShiftDr at h
  split at h
  · cases h; rfl
  · cases h

theorem unpack_zeros (n w : Nat) : Buffer.unpack (Buffer.zeros n) 0 w = 0 := by
  apply Nat.eq_of_testBit_eq; intro k; simp [Buffer.testBit_unpack, Buffer.bit_zeros]

theorem issueZeros_eq (s : State) :
    issueDr s.packZeros Config.zeroFillBits = .next (s.packZeros.emit (.shiftDr 64 (some 0) none)).await := by
  have hd : s.packZeros.mem.get .drbuf = Buffer.zeros 8 := rfl
  show onNext (execShiftDr _ _ _ _) _ = _
  unfold execShiftDr State.fits State.drRequest
  simp only [Option.map, hd, unpack_zeros]
  rfl

theorem unpack_packRouted (s : State) (h : s.mem.wf = true) (hw : s.routedWidth ≤ 64) :
    Buffer.unpack (s.packRouted.mem.get .drbuf) 0 s.routedWidth = s.routedWord := by
  have hc := ((Memory.wf_iff _).1 h).1
  show Buffer.unpack (Buffer.pack s.mem.drbuf 0 s.routedWord s.routedWidth) 0 s.routedWidth = _
  rw [Buffer.unpack_pack_self _ _ _ _ (by unfold Buffer.capacity; omega)]
  exact Nat.mod_eq_of_lt (mkVir_lt _ _ _ _)

theorem issueRouted_eq (s : State) (h : s.mem.wf = true) (hw : s.routedWidth ≤ 64) :
    issueDr s.packRouted s.routedWidth =
      .next (s.packRouted.emit (.shiftDr s.routedWidth (some s.routedWord) none)).await := by
  have hc := ((Memory.wf_iff _).1 (packRouted_wf s h)).1
  have hf : s.packRouted.fits s.routedWidth (some .drbuf) = true := by
    refine decide_eq_true ?_
    show _ ≤ 8 * s.packRouted.mem.drbuf.length
    omega
  show onNext (execShiftDr _ _ _ _) _ = _
  unfold execShiftDr State.drRequest
  simp only [Option.map, unpack_packRouted s h hw, hf]
  rfl

theorem issueDr_next (s t : State) (w : Nat) (h : issueDr s w = .next t) :
    t = (s.emit (.shiftDr w (some (Buffer.unpack (s.mem.get .drbuf) 0 w)) none)).await := by
  change onNext (execShiftDr _ _ _ _) _ = _ at h
  unfold execShiftDr at h
  split at h
  · cases h; rfl
  · cases h

/-- Every transaction of the engine, with its guard and its next state. -/
inductive Moves (s : State) : State → Prop
  | reset (hr : s.env.resetReq = true) : Moves s s.engineReset
  | wait (hr : s.env.resetReq = false) (hs : s.stage = .idle) (hc : s.env.commands = []) : Moves s s
  | discover (c : Command) (cs : List Command) (hr : s.env.resetReq = false) (hs : s.stage = .idle)
      (hc : s.env.commands = c :: cs) (hop : c.word.extractLsb' 0 2 = 1#2) (h4 : 4 ≤ c.tap.irlen) :
      Moves s ((s.withCommands cs).acceptDiscover c.tap)
  | route (c : Command) (cs : List Command) (hr : s.env.resetReq = false) (hs : s.stage = .idle)
      (hc : s.env.commands = c :: cs) (hop : c.word.extractLsb' 0 2 = 2#2) (h4 : 4 ≤ c.tap.irlen) :
      Moves s ((s.withCommands cs).acceptRoute (c.word.extractLsb' 2 32) c.tap)
  | reserved (c : Command) (cs : List Command) (hr : s.env.resetReq = false) (hs : s.stage = .idle)
      (hc : s.env.commands = c :: cs) (hop : c.word.extractLsb' 0 2 ≠ 1#2 ∧ c.word.extractLsb' 0 2 ≠ 2#2) :
      Moves s (s.withCommands cs).notAccepted
  | completed (hr : s.env.resetReq = false) (hs : s.stage ≠ .idle) (hw : s.awaiting = true)
      (ha : s.env.nextAnswer = .success) : Moves s s.executed.afterRequest
  | failed (tok : Token) (hr : s.env.resetReq = false) (hs : s.stage ≠ .idle) (hw : s.awaiting = true)
      (ha : s.env.nextAnswer = .transportError tok) :
      Moves s (s.executeFailed.raise (.transportError (.chain tok)))
  | resetTap (hr : s.env.resetReq = false) (hs : s.stage = .s1Reset) (hw : s.awaiting = false) :
      Moves s (s.emit .resetTap).await
  | select (op : Nat) (hr : s.env.resetReq = false) (hw : s.awaiting = false) (h4 : 4 ≤ s.cmdTap.irlen)
      (hs : (op = Config.user1 ∧ (s.stage = .s2SelVir ∨ s.stage = .raSelVir)) ∨
        (op = Config.user0 ∧ (s.stage = .s4SelVdr ∨ s.stage = .rcSelVdr))) :
      Moves s ((s.packIr s.cmdTap op).emit (selectRequest s.cmdTap op)).await
  | zeroFill (hr : s.env.resetReq = false) (hs : s.stage = .s3HubAddr0) (hw : s.awaiting = false) :
      Moves s (s.packZeros.emit (.shiftDr 64 (some 0) none)).await
  | nibble (hr : s.env.resetReq = false) (hs : s.stage = .s5HubRead ∨ s.stage = .s7Enum) (hw : s.awaiting = false)
      (hn : s.nibCnt.toNat < 8) : Moves s (s.emit nibbleRequest).await
  | hubWord (hr : s.env.resetReq = false) (hs : s.stage = .s5HubRead) (hw : s.awaiting = false) (hn : 8 ≤ s.nibCnt.toNat) :
      Moves s ((s.takeHubWord s.acc (s.acc.extractLsb' 19 8) (s.acc.extractLsb' 0 8)).goto .s6Derive)
  | derive (hr : s.env.resetReq = false) (hs : s.stage = .s6Derive) (hw : s.awaiting = false) : Moves s s.startEnum
  | enumerate (hr : s.env.resetReq = false) (hs : s.stage = .s7Enum) (hw : s.awaiting = false)
      (hn : 8 ≤ s.nibCnt.toNat) (hi : s.nodeIdx = 0) : Moves s s.nextNode
  | nodeWord (hr : s.env.resetReq = false) (hs : s.stage = .s7Enum) (hw : s.awaiting = false)
      (hn : 8 ≤ s.nibCnt.toNat) (hi : s.nodeIdx ≠ 0) : Moves s (s.takeNode s.acc).nextNode
  | notFound (hr : s.env.resetReq = false) (hs : s.stage = .s8Final) (hw : s.awaiting = false) (hf : s.found = false) :
      Moves s (s.raise .noVjtagFound)
  | outOfRange (hr : s.env.resetReq = false) (hs : s.stage = .s8Final) (hw : s.awaiting = false) (hf : s.found = true)
      (hx : 64 < s.routedWidth) : Moves s (s.raise (.transportError .decodeRange))
  | publish (hr : s.env.resetReq = false) (hs : s.stage = .s8Final) (hw : s.awaiting = false) (hf : s.found = true)
      (hx : s.routedWidth ≤ 64) : Moves s s.publish
  | handoff (hr : s.env.resetReq = false) (hs : s.stage = .s9Handoff) (hw : s.awaiting = false) : Moves s s.handoff
  | notDiscovered (hr : s.env.resetReq = false) (hs : s.stage = .r0Check) (hw : s.awaiting = false)
      (hv : s.valid = false) : Moves s (s.raise .notDiscovered)
  | checked (hr : s.env.resetReq = false) (hs : s.stage = .r0Check) (hw : s.awaiting = false) (hv : s.valid = true) :
      Moves s (s.goto .raSelVir)
  | routed (hr : s.env.resetReq = false) (hs : s.stage = .rbVirShift) (hw : s.awaiting = false) (hv : s.valid = true) :
      Moves s (s.packRouted.emit (.shiftDr s.routedWidth
        (some (Buffer.unpack (s.packRouted.mem.get .drbuf) 0 s.routedWidth)) none)).await

theorem advance_idle (s : State) (hs : s.stage = .idle) : advance s = takeCommand s := by unfold advance; rw [hs]

theorem advance_busy (s : State) (hs : s.stage ≠ .idle) : advance s = if s.awaiting then complete s else issue s := by
  unfold advance; split
  · exact absurd ‹_› hs
  · rfl

theorem complete_moves (s : State) (hr : s.env.resetReq = false) (hs : s.stage ≠ .idle) (hw : s.awaiting = true) :
    ∃ t, complete s = .next t ∧ Moves s t := by
  rcases answered_cases s with ⟨ha, he⟩ | ⟨tok, ha, he⟩
  · exact ⟨_, by unfold complete; rw [he]; rfl, .completed hr hs hw ha⟩
  · exact ⟨_, by unfold complete; rw [he]; rfl, .failed tok hr hs hw ha⟩

theorem takeCommand_moves (s t : State) (hr : s.env.resetReq = false) (hs : s.stage = .idle)
    (h : takeCommand s = .next t) : Moves s t := by
  unfold takeCommand at h
  split at h
  · cases h; exact .wait hr hs ‹_›
  · rename_i c cs hc
    have hb : (s.withCommands cs).busy = false := by simp [State.busy, State.withCommands, hs]
    change exec _ (s.withCommands cs) = _ at h
    unfold decodeCommand at h
    split at h
    · rename_i hop
      change execDiscover _ _ = _ at h
      unfold execDiscover at h
      rw [hb, if_neg (by decide)] at h
      split at h
      · cases h
      · cases h; exact .discover c cs hr hs hc hop (Nat.le_of_not_lt ‹_›)
    · split at h
      · rename_i hop
        change execRoute _ _ _ = _ at h
        unfold execRoute at h
        rw [hb, if_neg (by decide)] at h
        split at h
        · cases h
        · cases h; exact .route c cs hr hs hc hop (Nat.le_of_not_lt ‹_›)
      · rename_i h1 h2
        split at h <;> (cases h; exact .reserved c cs hr hs hc ⟨h1, h2⟩)

theorem issue_moves (s t : State) (hr : s.env.resetReq = false) (hs : s.stage ≠ .idle) (hw : s.awaiting = false)
    (h : issue s = .next t) : Moves s t := by
  have d1 : Config.user1 < 16 := by decide
  have d0 : Config.user0 < 16 := by decide
  unfold issue at h
  split at h
  · exact absurd ‹_› hs
  · rename_i hs; cases h; exact .resetTap hr hs hw
  · rename_i hs; obtain ⟨h4, rfl⟩ := issueSelect_next s t _ d1 h
    exact .select _ hr hw h4 (.inl ⟨rfl, .inl hs⟩)
  · rename_i hs; rw [issueZeros_eq] at h; cases h; exact .zeroFill hr hs hw
  · rename_i hs; obtain ⟨h4, rfl⟩ := issueSelect_next s t _ d0 h
    exact .select _ hr hw h4 (.inr ⟨rfl, .inl hs⟩)
  · rename_i hs
    split at h
    · obtain rfl := issueNibble_next s t h; exact .nibble hr (.inl hs) hw ‹_›
    · rw [exec_decodeHub] at h; cases h; exact .hubWord hr hs hw (Nat.le_of_not_lt ‹_›)
  · rename_i hs; cases h; exact .derive hr hs hw
  · rename_i hs
    split at h
    · obtain rfl := issueNibble_next s t h; exact .nibble hr (.inr hs) hw ‹_›
    · split at h
      · cases h; exact .enumerate hr hs hw (Nat.le_of_not_lt ‹_›) ‹_›
      · rw [exec_decodeNode] at h; cases h; exact .nodeWord hr hs hw (Nat.le_of_not_lt ‹_›) ‹_›
  · rename_i hs
    split at h
    · cases h; exact .notFound hr hs hw (by simp_all)
    · have hf : s.found = true := by simp_all
      split at h
      · cases h; exact .outOfRange hr hs hw hf ‹_›
      · cases h; exact .publish hr hs hw hf (Nat.le_of_not_lt ‹_›)
  · rename_i hs; cases h; exact .handoff hr hs hw
  · rename_i hs
    split at h
    · cases h; exact .notDiscovered hr hs hw (by simp_all)
    · cases h; exact .checked hr hs hw (by simp_all)
  · rename_i hs; obtain ⟨h4, rfl⟩ := issueSelect_next s t _ d1 h
    exact .select _ hr hw h4 (.inl ⟨rfl, .inr hs⟩)
  · rename_i hs
    split at h
    · cases h
    · obtain rfl := issueDr_next _ _ _ h; exact .routed hr hs hw (by simp_all)
  · rename_i hs; obtain ⟨h4, rfl⟩ := issueSelect_next s t _ d0 h
    exact .select _ hr hw h4 (.inr ⟨rfl, .inr hs⟩)

/-- A step that answers a next state is one of the moves. -/
theorem step_moves (s t : State) (h : step s = .next t) : Moves s t := by
  unfold step at h
  split at h
  · cases h; exact .reset ‹_›
  · have hr : s.env.resetReq = false := by simp_all
    by_cases hs : s.stage = .idle
    · rw [advance_idle s hs] at h; exact takeCommand_moves s t hr hs h
    · rw [advance_busy s hs] at h
      by_cases hw : s.awaiting = true
      · obtain ⟨u, hu, hm⟩ := complete_moves s hr hs hw
        rw [if_pos hw, hu] at h; cases h; exact hm
      · rw [if_neg hw] at h; exact issue_moves s t hr hs (by simpa using hw) h

end Sys2Proof.Machine
end

