-- ==== Sys2Proof/Laws/Runs.lean ====
section
/-!
SUPPORT. Runs of several steps: every transaction of the engine as two steps, a register read as sixteen, the node loop as
seventeen a node. A whole command is put together from these with `run_add`.
-/

namespace Sys2Proof.Machine

/-- One step of any machine, then the rest. -/
theorem coreRun_succ (M : Host.Core) (k : Nat) (s t : M.State) (h : M.step s = .next t) : M.run (k + 1) s = M.run k t := by
  rw [Host.Core.run, h]

theorem coreRun_add (M : Host.Core) (a b : Nat) (s t : M.State) (h : M.run a s = .next t) : M.run (a + b) s = M.run b t := by
  induction a generalizing s with
  | zero => rw [Host.Core.run] at h; cases h; rw [Nat.zero_add]
  | succ a ih =>
    rw [Nat.succ_add]
    cases hs : M.step s with
    | next u => rw [coreRun_succ M a s u hs] at h; rw [coreRun_succ M _ s u hs]; exact ih _ h
    | fault r => rw [Host.Core.run, hs] at h; cases h
    | refused r => rw [Host.Core.run, hs] at h; cases h

/-- One step, then the rest. -/
theorem run_succ (k : Nat) (s t : State) (h : step s = .next t) :
    Sys2Proof.core.run (k + 1) s = Sys2Proof.core.run k t := coreRun_succ Sys2Proof.core k s t h

theorem run_one (s t : State) (h : step s = .next t) : Sys2Proof.core.run 1 s = .next t := by
  rw [run_succ 0 s t h]; simp [Host.Core.run]

/-- A run in two parts. -/
theorem run_add (a b : Nat) (s t : State) (h : Sys2Proof.core.run a s = .next t) :
    Sys2Proof.core.run (a + b) s = Sys2Proof.core.run b t := coreRun_add Sys2Proof.core a b s t h

/-- What served requests leave behind: buffers, far end, the rest of the channels, the trace. -/
def State.after (s : State) (m : Memory) (f : FarEnd) (rs : List Request) (as : List Answer) (xs : List Nat) : State :=
  { s with
    mem := m
    far := f
    env := { s.env with answers := as, captures := xs }
    out := { s.out with trace := s.out.trace ++ servedTrace rs } }

theorem servedTrace_append (a b : List Request) : servedTrace (a ++ b) = servedTrace a ++ servedTrace b := by
  simp [servedTrace]

theorem State.after_after (s : State) (m m' : Memory) (f f' : FarEnd) (rs rs' : List Request) (as as' : List Answer)
    (xs xs' : List Nat) : (s.after m f rs as xs).after m' f' rs' as' xs' = s.after m' f' (rs ++ rs') as' xs' := by
  simp [State.after, servedTrace_append]

/-- The engine can issue its next request. -/
structure State.Ready (s : State) : Prop where
  noReset : s.env.resetReq = false
  busy : s.stage ≠ .idle
  free : s.awaiting = false
  empty : s.queue = []
  memory : s.mem.wf = true
  tap : 4 ≤ s.cmdTap.irlen

theorem State.Ready.after {s : State} (h : s.Ready) (m : Memory) (f : FarEnd) (rs : List Request) (as : List Answer)
    (xs : List Nat) (hm : m.wf = true) : (s.after m f rs as xs).Ready :=
  ⟨h.noReset, h.busy, h.free, h.empty, hm, h.tap⟩

theorem step_issue (s : State) (h : s.Ready) : step s = issue s := by
  unfold step; rw [if_neg (by simp [h.noReset]), advance_busy s h.busy, if_neg (by simp [h.free])]

theorem step_complete (s : State) (hr : s.env.resetReq = false) (hb : s.stage ≠ .idle) (hw : s.awaiting = true)
    (ha : s.env.nextAnswer = .success) : step s = .next s.executed.afterRequest := by
  unfold step; rw [if_neg (by simp [hr]), advance_busy s hb, if_pos hw]
  unfold complete; rw [answered_success s ha]; rfl

/-- A request that captures nothing, from its emission to its completion. -/
theorem run_request (s p : State) (r : Request) (as : List Answer) (h : s.Ready) (he : issue s = .next (p.emit r).await)
    (hp : p = { s with mem := p.mem }) (hc : ∀ e m, fillCaptures [r] (e, m) = (e, m)) (ha : s.env.answers = .success :: as) :
    Sys2Proof.core.run 2 s = .next (s.after p.mem (s.far.perform r) [r] as s.env.captures).afterRequest := by
  rw [show 2 = 1 + 1 from rfl, run_add 1 1 s _ (run_one s _ ((step_issue s h).trans he))]
  have hx : (p.emit r).await.executed = s.after p.mem (s.far.perform r) [r] as s.env.captures := by
    rw [hp]
    simp [State.after, State.executed, State.emit, State.await, h.empty, hc, Env.dropAnswer, ha, Out.log, servedTrace]
    exact h.free
  rw [run_one _ _ (step_complete (p.emit r).await (by rw [hp]; exact h.noReset) (by rw [hp]; exact h.busy) rfl
    (by rw [hp]; show s.env.nextAnswer = _; simp [Env.nextAnswer, ha])), hx]

theorem run_resetTap (s : State) (as : List Answer) (h : s.Ready) (hs : s.stage = .s1Reset)
    (ha : s.env.answers = .success :: as) :
    Sys2Proof.core.run 2 s = .next ((s.goto .s2SelVir).after s.mem .unknown [.resetTap] as s.env.captures) := by
  rw [run_request s s .resetTap as h (by unfold issue; rw [hs]; rfl) rfl (fun _ _ => rfl) ha]
  simp only [State.afterRequest, State.after, hs]; rfl

/-- The next stage after a select. -/
def Stage.afterSelect : Stage → Stage
  | .s2SelVir => .s3HubAddr0
  | .s4SelVdr => .s5HubRead
  | .raSelVir => .rbVirShift
  | .rcSelVdr => .idle
  | st => st

theorem run_select (s : State) (op : Nat) (as : List Answer) (h : s.Ready) (hop : op < 16)
    (hi : issue s = issueSelect s op) (ha : s.env.answers = .success :: as) :
    Sys2Proof.core.run 2 s = .next (s.after { s.mem with irbuf := irBuffer s.mem.irbuf s.cmdTap.irlen op } (s.far.loadIr op)
      [selectRequest s.cmdTap op] as s.env.captures).afterRequest := by
  rw [run_request s (s.packIr s.cmdTap op) (selectRequest s.cmdTap op) as h
    (hi.trans (issueSelect_eq s op hop h.tap)) rfl (fun _ _ => rfl) ha]
  rfl

theorem run_zeroFill (s : State) (as : List Answer) (h : s.Ready) (hs : s.stage = .s3HubAddr0)
    (ha : s.env.answers = .success :: as) :
    Sys2Proof.core.run 2 s = .next ((s.goto .s4SelVdr).after s.packZeros.mem (s.far.scanDr 64 (some 0))
      [.shiftDr 64 (some 0) none] as s.env.captures) := by
  rw [run_request s s.packZeros (.shiftDr 64 (some 0) none) as h
    (by unfold issue; rw [hs]; exact issueZeros_eq s) rfl (fun _ _ => rfl) ha]
  simp only [State.afterRequest, State.after, hs]; rfl

theorem run_routed (s : State) (as : List Answer) (h : s.Ready) (hs : s.stage = .rbVirShift) (hv : s.valid = true)
    (hw : s.routedWidth ≤ 64) (ha : s.env.answers = .success :: as) :
    Sys2Proof.core.run 2 s = .next ((s.goto .rcSelVdr).after s.packRouted.mem
      (s.far.scanDr s.routedWidth (some s.routedWord)) [.shiftDr s.routedWidth (some s.routedWord) none] as
      s.env.captures) := by
  rw [run_request s s.packRouted (.shiftDr s.routedWidth (some s.routedWord) none) as h
    (by unfold issue; rw [hs]; simp only [hv]; exact issueRouted_eq s h.memory hw) rfl (fun _ _ => rfl) ha]
  simp only [State.afterRequest, State.after, hs]; rfl

/-! ### Register reads -/

/-- One nibble of a register read: two steps. -/
theorem run_nibble (s : State) (x : Nat) (xs : List Nat) (as : List Answer) (h : s.Ready)
    (hs : s.stage = .s5HubRead ∨ s.stage = .s7Enum) (hn : s.nibCnt.toNat < 8) (ha : s.env.answers = .success :: as)
    (hc : s.env.captures = x :: xs) :
    ∃ m f, Sys2Proof.core.run 2 s =
      .next ((s.takeNibble x).after m f [nibbleRequest] as xs) ∧ m.wf = true := by
  have hl := ((Memory.wf_iff _).1 h.memory)
  have he : issue s = .next (s.emit nibbleRequest).await := by
    rw [← issueNibble_eq s h.memory]
    unfold issue
    rcases hs with hs | hs <;> rw [hs] <;> exact if_pos hn
  have hx : (s.emit nibbleRequest).await.executed =
      s.after { s.mem with capbuf := Buffer.pack s.mem.capbuf 0 x 4 } (s.far.perform nibbleRequest) [nibbleRequest] as xs := by
    simp [State.after, State.executed, State.emit, State.await, h.empty, nibbleRequest, fillCaptures, Env.dropAnswer,
      Env.dropCapture, ha, hc, Out.log, servedTrace, Memory.pack, Memory.get, Memory.set]
    exact h.free
  refine ⟨{ s.mem with capbuf := Buffer.pack s.mem.capbuf 0 x 4 }, s.far.perform nibbleRequest, ?_, ?_⟩
  · rw [show 2 = 1 + 1 from rfl, run_add 1 1 s _ (run_one s _ ((step_issue s h).trans he)),
      run_one _ _ (step_complete (s.emit nibbleRequest).await h.noReset h.busy rfl
        (by show s.env.nextAnswer = _; simp [Env.nextAnswer, ha])), hx]
    have hcap : Buffer.unpack (Buffer.pack s.mem.capbuf 0 x 4) 0 4 = x % 2 ^ 4 :=
      Buffer.unpack_pack_self _ _ _ _ (by simp [Buffer.capacity, hl.2])
    rcases hs with hs | hs <;>
      simp only [State.afterRequest, State.after, hs, State.capturedNibble, Config.nibbleBits, hcap, State.takeNibble,
        show (2 : Nat) ^ 4 = 16 from rfl, nibAcc_mod]
  · rw [Memory.wf_iff]; simp [hl]

/-- Several nibbles of one register read, in the stage of the read. -/
theorem run_nibbles (ys : List Nat) : ∀ (s : State) (xs : List Nat) (as : List Answer), s.Ready →
    s.stage = .s5HubRead ∨ s.stage = .s7Enum → s.nibCnt.toNat + ys.length ≤ 8 →
    s.env.answers = List.replicate ys.length .success ++ as → s.env.captures = ys ++ xs →
    ∃ m f, Sys2Proof.core.run (2 * ys.length) s =
      .next (({ s with acc := ys.foldl nibAcc s.acc, nibCnt := BitVec.ofNat 4 (s.nibCnt.toNat + ys.length) } : State).after m f
        (List.replicate ys.length nibbleRequest) as xs) ∧ m.wf = true := by
  induction ys with
  | nil =>
    intro s xs as h _ _ ha hc
    refine ⟨s.mem, s.far, ?_, h.memory⟩
    have : BitVec.ofNat 4 (s.nibCnt.toNat + 0) = s.nibCnt := by simp
    simp only [List.length_nil, this]
    simp only [List.length_nil, List.replicate_zero, List.nil_append] at ha hc
    show Host.Outcome.next s = _
    congr 1
    simp only [State.after, servedTrace, List.foldl, List.replicate_zero, List.flatMap_nil, List.append_nil, ← ha, ← hc]
  | cons y ys ih =>
    intro s xs as h hs hn ha hc
    have hn' : s.nibCnt.toNat + (ys.length + 1) ≤ 8 := hn
    obtain ⟨m, f, h1, hm⟩ := run_nibble s y (ys ++ xs) (List.replicate ys.length .success ++ as) h hs (by omega)
      (by simpa [List.replicate_succ] using ha) hc
    have hk : (s.nibCnt + 1).toNat = s.nibCnt.toNat + 1 := by rw [BitVec.toNat_add]; simp; omega
    obtain ⟨m', f', h2, hm'⟩ := ih ((s.takeNibble y).after m f [nibbleRequest] (List.replicate ys.length .success ++ as)
      (ys ++ xs)) xs as (State.Ready.after (s := s.takeNibble y) ⟨h.noReset, h.busy, h.free, h.empty, h.memory, h.tap⟩ _ _ _ _ _ hm)
      hs (by show (s.nibCnt + 1).toNat + _ ≤ 8; omega) rfl rfl
    refine ⟨m', f', ?_, hm'⟩
    rw [show 2 * (y :: ys).length = 2 + 2 * ys.length by simp; omega, run_add _ _ _ _ h1, h2]
    congr 1
    have e : BitVec.ofNat 4 ((s.nibCnt + 1).toNat + ys.length) = BitVec.ofNat 4 (s.nibCnt.toNat + (y :: ys).length) := by
      rw [hk]; congr 1; simp; omega
    rw [← e]
    simp only [State.after, List.length_cons, List.replicate_succ, State.takeNibble, List.foldl_cons]
    rw [show servedTrace (nibbleRequest :: List.replicate ys.length nibbleRequest) =
      servedTrace [nibbleRequest] ++ servedTrace (List.replicate ys.length nibbleRequest) from servedTrace_append [_] _,
      List.append_assoc]

/-- The nibbles of a word put it together again. -/
theorem foldl_nibblesOf (w acc : BitVec 32) : (nibblesOf w).foldl nibAcc acc = w := by
  apply BitVec.eq_of_toNat_eq
  have h : nibblesOf w = [w.toNat / 16 ^ 0 % 16, w.toNat / 16 ^ 1 % 16, w.toNat / 16 ^ 2 % 16, w.toNat / 16 ^ 3 % 16,
    w.toNat / 16 ^ 4 % 16, w.toNat / 16 ^ 5 % 16, w.toNat / 16 ^ 6 % 16, w.toNat / 16 ^ 7 % 16] := rfl
  rw [h, toNat_assemble32]
  have := w.isLt
  omega

theorem length_nibblesOf (w : BitVec 32) : (nibblesOf w).length = 8 := rfl

/-- A whole register read: sixteen steps, eight requests. -/
theorem run_read (s : State) (w : BitVec 32) (xs : List Nat) (as : List Answer) (h : s.Ready)
    (hs : s.stage = .s5HubRead ∨ s.stage = .s7Enum) (hn : s.nibCnt = 0)
    (ha : s.env.answers = List.replicate 8 .success ++ as) (hc : s.env.captures = nibblesOf w ++ xs) :
    ∃ m f, Sys2Proof.core.run 16 s = .next (({ s with acc := w, nibCnt := 8 } : State).after m f
      (List.replicate 8 nibbleRequest) as xs) ∧ m.wf = true := by
  obtain ⟨m, f, h1, hm⟩ := run_nibbles (nibblesOf w) s xs as h hs
    (by rw [hn, length_nibblesOf]; decide) ha hc
  refine ⟨m, f, ?_, hm⟩
  rw [foldl_nibblesOf, hn] at h1
  exact h1

/-- The routed scan, every request served: six steps, three requests. -/
theorem run_routedScan (s : State) (as : List Answer) (h : s.Ready) (hs : s.stage = .raSelVir) (hv : s.valid = true)
    (hw : s.routedWidth ≤ 64) (ha : s.env.answers = List.replicate 3 .success ++ as) :
    ∃ m f, Sys2Proof.core.run 6 s = .next (s.after m f (routedRequests s.cmdTap s.routedWidth s.routedWord) as
      s.env.captures).succeed ∧ f.ir = some Config.user0 ∧ f.vir = some ⟨s.routedWidth, s.routedWord⟩ := by
  have h1 := run_select s Config.user1 (List.replicate 2 .success ++ as) h (by decide)
    (by unfold issue; rw [hs]) (by simpa [List.replicate] using ha)
  obtain ⟨u, hu⟩ : ∃ u, u = (s.goto .rbVirShift).after { s.mem with irbuf := irBuffer s.mem.irbuf s.cmdTap.irlen Config.user1 }
    (s.far.loadIr Config.user1) [selectRequest s.cmdTap Config.user1] (List.replicate 2 .success ++ as) s.env.captures := ⟨_, rfl⟩
  have e1 : ((s.after { s.mem with irbuf := irBuffer s.mem.irbuf s.cmdTap.irlen Config.user1 } (s.far.loadIr Config.user1)
      [selectRequest s.cmdTap Config.user1] (List.replicate 2 .success ++ as) s.env.captures).afterRequest) = u := by
    rw [hu]; simp only [State.afterRequest, State.after, hs]; rfl
  rw [e1] at h1
  have hru : u.Ready := by
    rw [hu]; exact ⟨h.noReset, (by show Stage.rbVirShift ≠ _; decide), h.free, h.empty, h.memory, h.tap⟩
  have w1 : u.routedWidth = s.routedWidth := by rw [hu]; rfl
  have w2 : u.routedWord = s.routedWord := by rw [hu]; rfl
  have h2 := run_routed u (List.replicate 1 .success ++ as) hru (by rw [hu]; rfl) (by rw [hu]; exact hv)
    (by rw [w1]; exact hw) (by rw [hu]; rfl)
  obtain ⟨v, hv'⟩ : ∃ v, v = (u.goto .rcSelVdr).after u.packRouted.mem
      (u.far.scanDr u.routedWidth (some u.routedWord)) [.shiftDr u.routedWidth (some u.routedWord) none] (List.replicate 1 .success ++ as)
      u.env.captures := ⟨_, rfl⟩
  rw [← hv'] at h2
  have hrv : v.Ready := by
    rw [hv']; exact ⟨hru.noReset, (by show Stage.rcSelVdr ≠ _; decide), hru.free, hru.empty, packRouted_wf u hru.memory, hru.tap⟩
  have hsv : v.stage = .rcSelVdr := by rw [hv']; rfl
  have h3 := run_select v Config.user0 as hrv (by decide) (by unfold issue; rw [hsv]) (by rw [hv']; rfl)
  refine ⟨{ v.mem with irbuf := irBuffer v.mem.irbuf v.cmdTap.irlen Config.user0 }, v.far.loadIr Config.user0, ?_, rfl, ?_⟩
  · rw [show 6 = 2 + (2 + 2) from rfl, run_add _ _ _ _ h1, run_add _ _ _ _ h2, h3]
    congr 1
    simp only [State.afterRequest, State.after, hsv]
    rw [hv', hu]
    simp only [State.goto, State.after, servedTrace, routedRequests, List.flatMap_cons, List.flatMap_nil, List.append_assoc, List.append_nil]
    rfl
  · show v.far.vir = _
    rw [hv']
    show (u.far.scanDr u.routedWidth (some u.routedWord)).vir = _
    rw [w1, w2]
    unfold FarEnd.scanDr
    rw [if_pos (by rw [hu]; rfl)]; rfl

/-! ### The node loop -/

theorem nodeIdOf_eq (w : BitVec 32) : (w.extractLsb' 19 8 = Config.vjtagNodeId) ↔ (nodeIdOf w == 0x08) = true := by
  rw [beq_iff_eq]
  constructor
  · intro h; have := congrArg BitVec.toNat h; rw [toNat_extractLsb'_eq] at this; exact this
  · intro h; apply BitVec.eq_of_toNat_eq; rw [toNat_extractLsb'_eq]; exact h

/-- One node: its word is read and taken, and the loop goes on. -/
theorem run_node (s : State) (w : BitVec 32) (xs : List Nat) (as : List Answer) (h : s.Ready) (hs : s.stage = .s7Enum)
    (hn : s.nibCnt = 0) (hi : s.nodeIdx ≠ 0) (ha : s.env.answers = List.replicate 8 .success ++ as)
    (hc : s.env.captures = nibblesOf w ++ xs) :
    ∃ m f, Sys2Proof.core.run 17 s =
      .next ((({ s with acc := w, nibCnt := 8 } : State).takeNode w).nextNode.after m f (List.replicate 8 nibbleRequest) as xs) ∧
        m.wf = true := by
  obtain ⟨m, f, h1, hm⟩ := run_read s w xs as h (.inr hs) hn ha hc
  refine ⟨m, f, ?_, hm⟩
  rw [show 17 = 16 + 1 from rfl, run_add _ _ _ _ h1]
  apply run_one
  have hr : (({ s with acc := w, nibCnt := 8 } : State).after m f (List.replicate 8 nibbleRequest) as xs).Ready :=
    ⟨h.noReset, h.busy, h.free, h.empty, hm, h.tap⟩
  rw [step_issue _ hr]
  unfold issue
  simp only [State.after, hs]
  rw [if_neg (by decide), if_neg hi, exec_decodeNode]
  by_cases ht : w.extractLsb' 19 8 = Config.vjtagNodeId <;> by_cases hlt : s.nodeIdx.toNat < s.nodeCount.toNat <;>
    simp only [State.takeNode, State.nextNode, onNext, ht, hlt, if_true, if_false, State.recordMatch, State.takeNodeWord,
      State.goto] <;> rfl

/-- What the registers hold when the nodes `ws` have been read, starting with the node of index `s.nodeIdx`. -/
structure State.Read (s t : State) (ws : List (BitVec 32)) : Prop where
  same : t = { s with
    stage := .s8Final
    nodeIdx := s.nodeCount
    acc := t.acc
    nibCnt := t.nibCnt
    errRaw := t.errRaw
    vjtagAddr := t.vjtagAddr
    found := t.found }
  raw : t.errRaw = ws.getLast?.getD s.errRaw
  keeps : s.found = true → t.found = true ∧ t.vjtagAddr = s.vjtagAddr
  first : s.found = false → ∀ a, ws.findIdx? (fun w => nodeIdOf w == 0x08) = some a →
    t.found = true ∧ t.vjtagAddr.toNat = s.nodeIdx.toNat + a
  none : s.found = false → ws.findIdx? (fun w => nodeIdOf w == 0x08) = none → t.found = false

/-- The node loop: seventeen steps and eight requests a node. -/
theorem run_nodes (ws : List (BitVec 32)) : ∀ (s : State) (xs : List Nat) (as : List Answer), ws ≠ [] → s.Ready →
    s.stage = .s7Enum → s.nibCnt = 0 → 1 ≤ s.nodeIdx.toNat → s.nodeIdx.toNat + ws.length = s.nodeCount.toNat + 1 →
    s.env.answers = List.replicate (8 * ws.length) .success ++ as → s.env.captures = streamOf ws ++ xs →
    ∃ t m f, Sys2Proof.core.run (17 * ws.length) s =
      .next (State.after t m f (List.replicate (8 * ws.length) nibbleRequest) as xs) ∧ m.wf = true ∧ s.Read t ws := by
  induction ws with
  | nil => intro s xs as h; exact absurd rfl h
  | cons w ws ih =>
    intro s xs as _ h hs hn hi hl ha hc
    have hi0 : s.nodeIdx ≠ 0 := by intro e; rw [e] at hi; exact absurd hi (by decide)
    have hlen : s.nodeIdx.toNat + (ws.length + 1) = s.nodeCount.toNat + 1 := hl
    have hcl := s.nodeCount.isLt
    obtain ⟨m, f, h1, hm⟩ := run_node s w (streamOf ws ++ xs) (List.replicate (8 * ws.length) .success ++ as) h hs hn hi0
      (by rw [ha, ← List.append_assoc, List.replicate_append_replicate]; congr 2; simp; omega)
      (by rw [hc]; simp [streamOf])
    by_cases hw : ws = []
    · subst hw
      have hlt : ¬ s.nodeIdx.toNat < s.nodeCount.toNat := by simp at hlen; omega
      have hix : s.nodeIdx = s.nodeCount := BitVec.eq_of_toNat_eq (by simp at hlen; omega)
      refine ⟨_, m, f, h1, hm, ?_⟩
      unfold State.takeNode State.nextNode
      by_cases ht : w.extractLsb' 19 8 = Config.vjtagNodeId
      · have ht' := (nodeIdOf_eq w).1 ht
        simp only [if_pos ht]
        rw [if_neg (by exact hlt)]
        refine ⟨by simp [State.goto, State.recordMatch, State.takeNodeWord, hix], by rfl, ?_, ?_, ?_⟩
        · intro hf; simp [State.recordMatch, State.takeNodeWord, hf]
        · intro hf a hfa
          rw [List.findIdx?_cons, if_pos ht'] at hfa; cases hfa
          simp [State.recordMatch, State.takeNodeWord, hf]
        · intro hf hfa; rw [List.findIdx?_cons, if_pos ht'] at hfa; cases hfa
      · have ht' : ¬ (nodeIdOf w == 0x08) = true := fun e => ht ((nodeIdOf_eq w).2 e)
        simp only [if_neg ht]
        rw [if_neg (by exact hlt)]
        refine ⟨by simp [State.goto, State.takeNodeWord, hix], by rfl, ?_, ?_, ?_⟩
        · intro hf; exact ⟨hf, rfl⟩
        · intro hf a hfa
          rw [List.findIdx?_cons, if_neg ht'] at hfa; cases hfa
        · intro hf _; exact hf
    · have hwl : 1 ≤ ws.length := by
        rcases ws with _ | _
        · exact absurd rfl hw
        · simp
      have hlt : s.nodeIdx.toNat < s.nodeCount.toNat := by omega
      have he : (s.nodeIdx + 1).toNat = s.nodeIdx.toNat + 1 := by rw [BitVec.toNat_add]; simp; omega
      obtain ⟨u, hu, hue, huf, hul⟩ : ∃ u : State, (({ s with acc := w, nibCnt := 8 } : State).takeNode w).nextNode = u ∧
          u = { s with nodeIdx := s.nodeIdx + 1, acc := 0, nibCnt := 0, errRaw := w, vjtagAddr := u.vjtagAddr, found := u.found } ∧
          (s.found = true → u.found = true ∧ u.vjtagAddr = s.vjtagAddr) ∧
          (s.found = false → if nodeIdOf w == 0x08 then u.found = true ∧ u.vjtagAddr = s.nodeIdx else u.found = false) := by
        unfold State.takeNode State.nextNode
        by_cases ht : w.extractLsb' 19 8 = Config.vjtagNodeId
        · have ht' := (nodeIdOf_eq w).1 ht
          simp only [if_pos ht]
          rw [if_pos (by exact hlt)]
          refine ⟨_, rfl, by simp [State.recordMatch, State.takeNodeWord], ?_, ?_⟩
          · intro hf; simp [State.recordMatch, State.takeNodeWord, hf]
          · intro hf; rw [if_pos ht']; simp [State.recordMatch, State.takeNodeWord, hf]
        · have ht' : ¬ (nodeIdOf w == 0x08) = true := fun e => ht ((nodeIdOf_eq w).2 e)
          simp only [if_neg ht]
          rw [if_pos (by exact hlt)]
          refine ⟨_, rfl, by simp [State.takeNodeWord], ?_, ?_⟩
          · intro hf; exact ⟨hf, rfl⟩
          · intro hf; rw [if_neg ht']; exact hf
      rw [hu] at h1
      have f1 : u.nodeIdx = s.nodeIdx + 1 := by rw [hue]
      have f2 : u.nodeCount = s.nodeCount := by rw [hue]
      have hur : u.Ready := by
        rw [hue]; exact ⟨h.noReset, h.busy, h.free, h.empty, h.memory, h.tap⟩
      obtain ⟨t, m', f', h2, hm', hrd⟩ := ih (u.after m f (List.replicate 8 nibbleRequest)
        (List.replicate (8 * ws.length) .success ++ as) (streamOf ws ++ xs)) xs as hw (hur.after _ _ _ _ _ hm)
        (by show u.stage = _; rw [hue]; exact hs) (by show u.nibCnt = _; rw [hue])
        (by show 1 ≤ u.nodeIdx.toNat; rw [f1, he]; omega)
        (by show u.nodeIdx.toNat + _ = u.nodeCount.toNat + 1; rw [f1, f2, he]; omega) rfl rfl
      obtain ⟨hsame, hraw, hkeep, hfirst, hnone⟩ := hrd
      refine ⟨{ t with mem := s.mem, far := s.far, env := s.env, out := s.out }, m', f', ?_, hm', ?_⟩
      · rw [show 17 * (w :: ws).length = 17 + 17 * ws.length by simp; omega, run_add _ _ _ _ h1, h2]
        congr 1
        rw [show 8 * (w :: ws).length = 8 + 8 * ws.length by simp; omega, ← List.replicate_append_replicate]
        have e1 : t.env.commands = s.env.commands ∧ t.env.draws = s.env.draws ∧ t.env.resetReq = s.env.resetReq := by
          rw [hsame, hue]; exact ⟨rfl, rfl, rfl⟩
        have e2 : t.out = { s.out with trace := s.out.trace ++ servedTrace (List.replicate 8 nibbleRequest) } := by
          rw [hsame, hue]; rfl
        simp only [State.after, e1, e2, servedTrace_append, List.append_assoc]
        rfl
      · refine ⟨?_, ?_, ?_, ?_, ?_⟩
        · rw [hsame, hue]; rfl
        · show t.errRaw = _
          rw [hraw]
          rcases ws with _ | ⟨w', ws'⟩
          · exact absurd rfl hw
          · simp [List.getLast?_eq_some_getLast]
        · intro hf
          have h3 := huf hf
          have h4 := hkeep h3.1
          exact ⟨h4.1, h4.2.trans h3.2⟩
        · intro hf a hfa
          have h3 := hul hf
          rw [List.findIdx?_cons] at hfa
          by_cases ht : (nodeIdOf w == 0x08) = true
          · rw [if_pos ht] at hfa h3; cases hfa
            have h4 := hkeep h3.1
            exact ⟨h4.1, by rw [h4.2]; show u.vjtagAddr.toNat = _; rw [h3.2]; rfl⟩
          · rw [if_neg ht] at hfa h3
            obtain ⟨b, hb, rfl⟩ := Option.map_eq_some_iff.1 hfa
            have h4 := hfirst h3 b hb
            refine ⟨h4.1, ?_⟩
            show t.vjtagAddr.toNat = _
            rw [h4.2]; show u.nodeIdx.toNat + b = _; rw [f1, he]; omega
        · intro hf hfa
          have h3 := hul hf
          rw [List.findIdx?_cons] at hfa
          by_cases ht : (nodeIdOf w == 0x08) = true
          · rw [if_pos ht] at hfa; cases hfa
          · rw [if_neg ht] at hfa h3
            exact hnone h3 (by simpa using hfa)

/-! ### Steps 1 to 7 -/

/-- What the registers hold when steps 1 to 7 have run. -/
structure State.Enumerated (s t : State) (h : BitVec 32) (ws : List (BitVec 32)) : Prop where
  same : t = { s with
    stage := .s8Final
    nodeCount := h.extractLsb' 19 8
    mWidth := h.extractLsb' 0 8
    nodeIdx := t.nodeIdx
    acc := t.acc
    nibCnt := t.nibCnt
    errRaw := ws.getLast?.getD h
    errRawValid := true
    vjtagAddr := t.vjtagAddr
    found := t.found }
  first : ∀ a, ws.findIdx? (fun w => nodeIdOf w == 0x08) = some a → t.found = true ∧ t.vjtagAddr.toNat = 1 + a
  none : ws.findIdx? (fun w => nodeIdOf w == 0x08) = none → t.found = false

/-- Steps 1 to 4, every request served: eight steps, four requests. -/
theorem run_addressing (s : State) (as : List Answer) (h : s.Ready) (hs : s.stage = .s1Reset)
    (ha : s.env.answers = List.replicate 4 .success ++ as) :
    ∃ m f, Sys2Proof.core.run 8 s = .next ((s.startRead.goto .s5HubRead).after m f
      [.resetTap, selectRequest s.cmdTap Config.user1, .shiftDr 64 (some 0) none, selectRequest s.cmdTap Config.user0] as
      s.env.captures) ∧ m.wf = true := by
  have h1 := run_resetTap s (List.replicate 3 .success ++ as) h hs (by simpa [List.replicate] using ha)
  obtain ⟨u, hu⟩ : ∃ u, u = (s.goto .s2SelVir).after s.mem .unknown [.resetTap] (List.replicate 3 .success ++ as) s.env.captures := ⟨_, rfl⟩
  rw [← hu] at h1
  have hru : u.Ready := by
    rw [hu]; exact ⟨h.noReset, (by show Stage.s2SelVir ≠ _; decide), h.free, h.empty, h.memory, h.tap⟩
  have hsu : u.stage = .s2SelVir := by rw [hu]; rfl
  have h2 := run_select u Config.user1 (List.replicate 2 .success ++ as) hru (by decide) (by unfold issue; rw [hsu])
    (by rw [hu]; rfl)
  obtain ⟨v, hv⟩ : ∃ v, v = (u.goto .s3HubAddr0).after { u.mem with irbuf := irBuffer u.mem.irbuf u.cmdTap.irlen Config.user1 }
    (u.far.loadIr Config.user1) [selectRequest u.cmdTap Config.user1] (List.replicate 2 .success ++ as) u.env.captures := ⟨_, rfl⟩
  have e2 : (u.after { u.mem with irbuf := irBuffer u.mem.irbuf u.cmdTap.irlen Config.user1 } (u.far.loadIr Config.user1)
      [selectRequest u.cmdTap Config.user1] (List.replicate 2 .success ++ as) u.env.captures).afterRequest = v := by
    rw [hv]; simp only [State.afterRequest, State.after, hsu]; rfl
  rw [e2] at h2
  have hrv : v.Ready := by
    rw [hv]; exact ⟨hru.noReset, (by show Stage.s3HubAddr0 ≠ _; decide), hru.free, hru.empty, hru.memory, hru.tap⟩
  have h3 := run_zeroFill v (List.replicate 1 .success ++ as) hrv (by rw [hv]; rfl) (by rw [hv]; rfl)
  obtain ⟨w, hw⟩ : ∃ w, w = (v.goto .s4SelVdr).after v.packZeros.mem (v.far.scanDr 64 (some 0))
      [.shiftDr 64 (some 0) none] (List.replicate 1 .success ++ as) v.env.captures := ⟨_, rfl⟩
  rw [← hw] at h3
  have hrw : w.Ready := by
    rw [hw]; exact ⟨hrv.noReset, (by show Stage.s4SelVdr ≠ _; decide), hrv.free, hrv.empty, packZeros_wf v hrv.memory, hrv.tap⟩
  have hsw : w.stage = .s4SelVdr := by rw [hw]; rfl
  have h4 := run_select w Config.user0 as hrw (by decide) (by unfold issue; rw [hsw]) (by rw [hw]; rfl)
  refine ⟨{ w.mem with irbuf := irBuffer w.mem.irbuf w.cmdTap.irlen Config.user0 }, w.far.loadIr Config.user0, ?_, ?_⟩
  · rw [show 8 = 2 + (2 + (2 + 2)) from rfl, run_add _ _ _ _ h1, run_add _ _ _ _ h2, run_add _ _ _ _ h3, h4]
    congr 1
    simp only [State.afterRequest, State.after, hsw]
    rw [hw, hv, hu]
    simp only [State.goto, State.after, servedTrace, List.flatMap_cons, List.flatMap_nil, List.append_assoc, List.append_nil]
    rfl
  · exact hrw.memory

/-- Steps 1 to 7, every request served: `27 + 17N` steps, `12 + 8N` requests. -/
theorem run_enumeration (s : State) (h : BitVec 32) (ws : List (BitVec 32)) (xs : List Nat) (as : List Answer)
    (hr : s.Ready) (hs : s.stage = .s1Reset) (hf : s.found = false) (hl : ws.length = nodeCountOf h)
    (ha : s.env.answers = List.replicate (12 + 8 * ws.length) .success ++ as) (hc : s.env.captures = streamOf (h :: ws) ++ xs) :
    ∃ t m f, Sys2Proof.core.run (27 + 17 * ws.length) s =
      .next (State.after t m f (enumerationRequests s.cmdTap ws.length) as xs) ∧ m.wf = true ∧ s.Enumerated t h ws := by
  have hcnt : (h.extractLsb' 19 8).toNat = ws.length := by rw [toNat_extractLsb'_eq, hl]; rfl
  obtain ⟨m1, f1, h1, w1⟩ := run_addressing s (List.replicate 8 .success ++ (List.replicate (8 * ws.length) .success ++ as)) hr hs
    (by rw [ha, ← List.append_assoc, ← List.append_assoc, List.replicate_append_replicate, List.replicate_append_replicate])
  obtain ⟨u, hu⟩ : ∃ u, u = ((s.startRead.goto .s5HubRead).after m1 f1
      [.resetTap, selectRequest s.cmdTap Config.user1, .shiftDr 64 (some 0) none, selectRequest s.cmdTap Config.user0]
      (List.replicate 8 .success ++ (List.replicate (8 * ws.length) .success ++ as)) s.env.captures) := ⟨_, rfl⟩
  rw [← hu] at h1
  have hru : u.Ready := by
    rw [hu]; exact ⟨hr.noReset, (by show Stage.s5HubRead ≠ _; decide), hr.free, hr.empty, w1, hr.tap⟩
  obtain ⟨m2, f2, h2, w2⟩ := run_read u h (streamOf ws ++ xs) (List.replicate (8 * ws.length) .success ++ as) hru
    (.inl (by rw [hu]; rfl)) (by rw [hu]; rfl) (by rw [hu]; rfl) (by rw [hu]; show s.env.captures = _; rw [hc]; simp [streamOf])
  obtain ⟨v, hv⟩ : ∃ v, v = (({ u with acc := h, nibCnt := 8 } : State).after m2 f2
      (List.replicate 8 nibbleRequest) (List.replicate (8 * ws.length) .success ++ as) (streamOf ws ++ xs)) := ⟨_, rfl⟩
  rw [← hv] at h2
  have hrv : v.Ready := by
    rw [hv]; exact ⟨hru.noReset, hru.busy, hru.free, hru.empty, w2, hru.tap⟩
  obtain ⟨x, hx⟩ : ∃ x, x = ((v.takeHubWord h (h.extractLsb' 19 8) (h.extractLsb' 0 8)).goto .s6Derive) := ⟨_, rfl⟩
  have s3 : step v = .next x := by
    rw [step_issue v hrv]; unfold issue
    rw [show v.stage = .s5HubRead by rw [hv, hu]; rfl]
    show (if v.nibCnt.toNat < 8 then _ else _) = _
    rw [show v.nibCnt = 8 by rw [hv]; rfl, if_neg (by decide), exec_decodeHub, show v.acc = h by rw [hv]; rfl, hx]
    rfl
  have hrx : x.Ready := by
    rw [hx]; exact ⟨hrv.noReset, by show Stage.s6Derive ≠ _; decide, hrv.free, hrv.empty, hrv.memory, hrv.tap⟩
  have s4 : step x = .next x.startEnum := by
    rw [step_issue x hrx]; unfold issue; rw [show x.stage = .s6Derive by rw [hx]; rfl]
  have hry : x.startEnum.Ready := ⟨hrx.noReset, by show Stage.s7Enum ≠ _; decide, hrx.free, hrx.empty, hrx.memory, hrx.tap⟩
  have s5 : step x.startEnum = .next x.startEnum.nextNode := by
    rw [step_issue _ hry]
    show (if x.startEnum.nibCnt.toNat < 8 then _ else if x.startEnum.nodeIdx = 0 then _ else _) = _
    rw [show x.startEnum.nibCnt = 8 by rw [hx, hv]; rfl, if_neg (by decide), if_pos (by rfl)]
  have nc : x.nodeCount.toNat = ws.length := by rw [hx]; exact hcnt
  have hpre : Sys2Proof.core.run 27 s = .next x.startEnum.nextNode := by
    rw [show 27 = 8 + (16 + (1 + (1 + 1))) from rfl, run_add _ _ _ _ h1, run_add _ _ _ _ h2,
      run_add _ _ _ _ (run_one _ _ s3), run_add _ _ _ _ (run_one _ _ s4), run_one _ _ s5]
  by_cases hw : ws = []
  · subst hw
    have hx0 : x.startEnum.nextNode = x.startEnum.goto .s8Final := by
      unfold State.nextNode; rw [if_neg]; show ¬ (0#8).toNat < x.nodeCount.toNat; rw [nc]; decide
    rw [hx0] at hpre
    refine ⟨{ s with
      stage := .s8Final
      nodeCount := h.extractLsb' 19 8
      mWidth := h.extractLsb' 0 8
      nodeIdx := 0
      acc := h
      nibCnt := 8
      errRaw := h
      errRawValid := true }, m2, f2, ?_, w2, ?_⟩
    · rw [show 27 + 17 * ([] : List (BitVec 32)).length = 27 from rfl, hpre, hx, hv, hu]
      congr 1
      simp only [State.goto, State.after, servedTrace, enumerationRequests, List.length_nil, List.replicate,
        List.flatMap_cons, List.flatMap_nil, List.append_assoc, List.append_nil, streamOf, Nat.mul_zero, List.nil_append,
        State.takeHubWord, State.startEnum, State.startRead, List.cons_append]
      rfl
    · exact ⟨rfl, fun a h => (by cases h), fun _ => hf⟩
  · have hwl : 1 ≤ ws.length := by
      rcases ws with _ | _
      · exact absurd rfl hw
      · simp
    have hx0 : x.startEnum.nextNode = { x.startEnum with nodeIdx := 1, acc := 0, nibCnt := 0 } := by
      unfold State.nextNode; rw [if_pos]; · rfl
      show (0#8).toNat < x.nodeCount.toNat; rw [nc]; simp; omega
    rw [hx0] at hpre
    obtain ⟨t, m3, f3, h3, w3, hrd⟩ := run_nodes ws { x.startEnum with nodeIdx := 1, acc := 0, nibCnt := 0 } xs as hw
      ⟨hry.noReset, hry.busy, hry.free, hry.empty, hry.memory, hry.tap⟩ rfl rfl (by show 1 ≤ (1#8).toNat; decide)
      (by show 1 + _ = x.nodeCount.toNat + 1; rw [nc]; omega) (by rw [hx, hv]; rfl) (by rw [hx, hv]; rfl)
    obtain ⟨q1, q2, q3, q4, q5⟩ := hrd
    have hfx : x.found = false := by rw [hx, hv, hu]; exact hf
    refine ⟨{ t with mem := s.mem, far := s.far, env := s.env, out := s.out }, m3, f3, ?_, w3, ?_, ?_, ?_⟩
    · rw [run_add _ _ _ _ hpre, h3]
      congr 1
      have e1 : t.env.commands = s.env.commands ∧ t.env.draws = s.env.draws ∧ t.env.resetReq = s.env.resetReq := by
        rw [q1, hx, hv, hu]; exact ⟨rfl, rfl, rfl⟩
      have o1 : t.out = v.out := by rw [q1, hx]; rfl
      have o2 : v.out = { u.out with trace := u.out.trace ++ servedTrace (List.replicate 8 nibbleRequest) } := by rw [hv]; rfl
      have o3 : u.out = { s.out with trace := s.out.trace ++ servedTrace [.resetTap, selectRequest s.cmdTap Config.user1,
        .shiftDr 64 (some 0) none, selectRequest s.cmdTap Config.user0] } := by rw [hu]; rfl
      have e3 : servedTrace (enumerationRequests s.cmdTap ws.length) = servedTrace [.resetTap, selectRequest s.cmdTap Config.user1,
          .shiftDr 64 (some 0) none, selectRequest s.cmdTap Config.user0] ++ (servedTrace (List.replicate 8 nibbleRequest) ++
          servedTrace (List.replicate (8 * ws.length) nibbleRequest)) := by
        rw [← servedTrace_append, ← servedTrace_append, List.replicate_append_replicate]
        unfold enumerationRequests; rw [Nat.mul_add, Nat.mul_one]
      show t.after m3 f3 _ as xs = State.after _ m3 f3 _ as xs
      simp only [State.after, e1, e3, o1, o2, o3, List.append_assoc]
    · rw [q1, hx, hv, hu]
      have : t.errRaw = ws.getLast?.getD h := by rw [q2, hx]; rfl
      rw [this]
      rfl
    · intro a haa; have := q4 hfx a haa; exact ⟨this.1, this.2⟩
    · intro haa; exact q5 hfx haa

end Sys2Proof.Machine
end

