-- ==== Sys2Proof/Tests/Slice0.lean ====
section
/-!
SUPPORT. Tests: the smoke test of WellFormed, words written out from the spec's layouts, one-step tests with the results of
spec/95_test_vectors.md, and for every statement with hypotheses a concrete state and operands that meet them all.
-/

open Sys2Proof Sys2Proof.Machine

namespace Sys2Proof.Tests

/-- The one token that every choice of the open type has (Config.lean). -/
def tok0 : Token := ⟨0, .inl rfl⟩

/-! ### WellFormed: one ill-formed term for each check -/

theorem test_wf_refuses_narrow_tap : wfProblem (.discover ⟨0, 3⟩) = some .irlenTooNarrow := by decide
theorem test_wf_takes_irlen_four : WellFormed (.discover ⟨0, 4⟩) := by decide
theorem test_wf_refuses_codec_width : wfProblem (.pack .caller 0 65 0) = some .codecWidth := by decide
theorem test_wf_takes_codec_width_64 : WellFormed (.unpack .caller 0 64) := by decide
theorem test_wf_refuses_ir_width : wfProblem (.shiftIr ⟨0, 10⟩ 9 .irbuf) = some .irWidthNotIrlen := by decide
theorem test_wf_refuses_dr_width : wfProblem (.shiftDr 65 none none) = some .drWidth := by decide
theorem test_wf_refuses_hub_address : wfProblem (.mkvir 0 1 1 0) = some .hubAddress := by decide
theorem test_wf_refuses_routed_width : wfProblem (.routedVir 1 64 1 0) = some .routedWidth := by decide
theorem test_wf_refuses_routed_address : wfProblem (.routedVir 2 5 4 0) = some .routedAddress := by decide
theorem test_wf_refuses_routed_value : wfProblem (.routedVir 2 5 3 32) = some .routedValue := by decide
theorem test_wf_refuses_untagged_vjtag : wfProblem (.nodeInfo 0 0x08 0 0) = some .vjtagTag := by decide

/-! ### Decoding: every constructor with a bit pattern, its word written out from the spec's layout -/

/-- R114: `vir_val` in `[33:2]`, `op` in `[1:0]`; the word of P1. -/
theorem test_decode_discover :
    decode (.command ⟨7, 10⟩) ⟨34, 0b00000000000000000000000000000000_01⟩ = .ok (.discover ⟨7, 10⟩) := by rfl
/-- R114; the word `0x000000042` of P2. -/
theorem test_decode_route :
    decode (.command ⟨7, 10⟩) ⟨34, 0b00000000000000000000000000010000_10⟩ = .ok (.route 0x10 ⟨7, 10⟩) := by rfl
/-- R114: `vir_val` is ignored for a `DISCOVER`. -/
theorem test_decode_discover_ignores_vir_val :
    decode (.command ⟨7, 10⟩) ⟨34, 0b11111111111111111111111111111111_01⟩ = .ok (.discover ⟨7, 10⟩) := by rfl
theorem test_decode_reserved00 :
    decode (.command ⟨7, 10⟩) ⟨34, 0b00000000000000000000000000010000_00⟩ = .ok .cmdReserved00 := by rfl
theorem test_decode_reserved11 :
    decode (.command ⟨7, 10⟩) ⟨34, 0b10000000000000000000000000000000_11⟩ = .ok .cmdReserved11 := by rfl
/-- R92: `1100` in `[3:0]`, zeros above. -/
theorem test_decode_user0 : decode .physicalIr ⟨10, 0b000000_1100⟩ = .ok (.user0 10) := by rfl
/-- R92: `1110` in `[3:0]`, zeros above. -/
theorem test_decode_user1 : decode .physicalIr ⟨10, 0b000000_1110⟩ = .ok (.user1 10) := by rfl
/-- R100 (d): no other opcode is ever emitted. -/
theorem test_decode_other_opcode : decode .physicalIr ⟨10, 0b100000_1110⟩ = .error .opcodeNeverEmitted := by rfl
/-- R165: kinds 0 to 3. -/
theorem test_decode_resetTap : decode (.request noArgs) ⟨2, 0b00⟩ = .ok .resetTap := by rfl
theorem test_decode_shiftIr :
    decode (.request ⟨⟨7, 10⟩, 10, .irbuf, none, none⟩) ⟨2, 0b01⟩ = .ok (.shiftIr ⟨7, 10⟩ 10 .irbuf) := by rfl
theorem test_decode_shiftDr :
    decode (.request ⟨⟨7, 10⟩, 4, .irbuf, none, some .capbuf⟩) ⟨2, 0b10⟩ = .ok (.shiftDr 4 none (some .capbuf)) := by rfl
theorem test_decode_execute : decode (.request noArgs) ⟨2, 0b11⟩ = .ok .execute := by rfl
/-- R93 and T30: version 1, 3 nodes, manufacturer `0x06E`, `m = 5`. -/
theorem test_decode_hubCfg :
    decode .hubRegister ⟨32, 0b00001_00000011_00001101110_00000101⟩ = .ok (.hubCfg 1 3 0x06E 5) := by rfl
/-- R93 and T40: the complement of the `[26:19]` field. -/
theorem test_decode_hubCfg_edges :
    decode .hubRegister ⟨32, 0xF807FFFF⟩ = .ok (.hubCfg 31 0 0x7FF 255) := by rfl
/-- R94 and T38: `node_id = 0x04`, instance 1. -/
theorem test_decode_nodeInfo :
    decode .nodeRegister ⟨32, 0b00000_00000100_00001101110_00000001⟩ = .ok (.nodeInfo 0 0x04 0x06E 1) := by rfl
/-- R94 and T37: `node_id = 0x08`, version 1. -/
theorem test_decode_nodeInfoVjtag :
    decode .nodeRegister ⟨32, 0b00001_00001000_00001101110_00000000⟩ = .ok (.nodeInfoVjtag 1 0x06E 0) := by rfl
/-- R95 and T50: address 2 in two bits, value `0x10` in five. -/
theorem test_decode_routedVir : decode (.virtualIr 2 5) ⟨7, 0b10_10000⟩ = .ok (.routedVir 2 5 2 0x10) := by rfl
/-- R96: 64 zeros, and nothing else before `n` and `m` are known. -/
theorem test_decode_zeroFill : decode .hubAddressing ⟨64, 0⟩ = .ok .zeroFill := by rfl
theorem test_decode_not_zeroFill : decode .hubAddressing ⟨64, 1⟩ = .error .notZeroFill := by rfl
/-- R97. -/
theorem test_decode_nibble : decode .capture ⟨4, 0b1110⟩ = .ok (.nibble 0xE) := by rfl
/-- R113: codes 0 to 3. -/
theorem test_decode_rspSuccess : decode (.response none) ⟨2, 0b00⟩ = .ok .rspSuccess := by rfl
theorem test_decode_rspNoVjtagFound : decode (.response none) ⟨2, 0b01⟩ = .ok .rspNoVjtagFound := by rfl
theorem test_decode_rspTransportError :
    decode (.response (some (.chain tok0))) ⟨2, 0b10⟩ = .ok (.rspTransportError (.chain tok0)) := by rfl
theorem test_decode_rspTransportError_needs_token : decode (.response none) ⟨2, 0b10⟩ = .error .tokenMissing := by rfl
theorem test_decode_rspNotDiscovered : decode (.response none) ⟨2, 0b11⟩ = .ok .rspNotDiscovered := by rfl
theorem test_decode_wrong_width : decode .hubRegister ⟨31, 0⟩ = .error .wrongWidth := by rfl
theorem test_decode_bits_above_width : decode .capture ⟨4, 0x10⟩ = .error .bitsAboveWidth := by rfl

/-! ### One step on a small state -/

/-- The next state of an outcome. -/
def nextOf (o : Host.Outcome State Fault Refusal) : Option State :=
  match o with
  | .next s => some s
  | .fault _ => none
  | .refused _ => none

theorem exists_of_nextOf (o : Host.Outcome State Fault Refusal) (h : (nextOf o).isSome = true) : ∃ t, o = .next t := by
  cases o with
  | next s => exact ⟨s, rfl⟩
  | fault _ => cases h
  | refused _ => cases h

/-- The refusal of an outcome. -/
def refusalOf (o : Host.Outcome State Fault Refusal) : Option Refusal :=
  match o with
  | .next _ => none
  | .fault _ => none
  | .refused r => some r

/-- Reset with something on the channels. -/
def fed (commands : List Command) (answers : List Answer) (captures : List Nat) : State :=
  { State.reset with env := ⟨commands, answers, captures, 0, false⟩ }

/-- A caller's buffer. -/
def withBuffer (b : Buffer) : State := { State.reset with mem := { State.reset.mem with caller := b } }

/-- The Discovery Result of P1, published. -/
def published : State := { State.reset with valid := true, nodeCount := 3, mWidth := 5, vjtagAddr := 2 }

/-- The TAP handle of the spec's examples. -/
def tap10 : Tap := ⟨7, 10⟩

/-- The value an operation returned. -/
def retOf (i : Instr) (s : State) : Option Ret := (nextOf (exec i s)).map fun t => t.out.ret

/-- T1: a field that crosses a byte boundary, its neighbours kept. -/
theorem test_pack_crosses_a_byte :
    (nextOf (exec (.pack .caller 5 6 0x15) (withBuffer [0xFF, 0xFF, 0xFF, 0xFF]))).map (fun t => t.mem.caller) =
      some [0xBF, 0xFA, 0xFF, 0xFF] := by decide
/-- T2: a value wider than the field is truncated. -/
theorem test_pack_truncates :
    (nextOf (exec (.pack .caller 4 4 0x1F7) (withBuffer [0x00, 0x00]))).map (fun t => t.mem.caller) =
      some [0x70, 0x00] := by decide
/-- The refused calls of part 2.1. -/
theorem test_pack_refuses_68_bits : refusalOf (exec (.pack .drbuf 60 8 0) State.reset) = some .bufferCapacity := by decide
theorem test_pack_refuses_width_65 : refusalOf (exec (.pack .drbuf 0 65 0) State.reset) = some .codecWidth := by decide
/-- T10 and T12. -/
theorem test_unpack_manufacturer :
    retOf (.unpack .caller 8 11) (withBuffer [0x05, 0x6E, 0x18, 0x08]) = some (.nat 0x06E) := by decide
theorem test_unpack_low_nibble : retOf (.unpack .caller 0 4) (withBuffer [0xFF]) = some (.nat 0xF) := by decide
/-- R141, at the edges of a row. -/
theorem test_afw_3 : retOf (.afw 3) State.reset = some (.nat 2) := by decide
theorem test_afw_4 : retOf (.afw 4) State.reset = some (.nat 3) := by decide
/-- T21 and T23. -/
theorem test_nibacc_moves_down : retOf (.nibacc 0x50000000 0xE) State.reset = some (.word 0xE5000000) := by decide
theorem test_nibacc_low_four_bits : retOf (.nibacc 0 0x1F) State.reset = some (.word 0xF0000000) := by decide
/-- T26 and T28. -/
theorem test_asm32_order : retOf (.asm32 1 2 3 4 5 6 7 8) State.reset = some (.word 0x87654321) := by decide
theorem test_asm32_of_v3 : retOf (.asm32 6 0 0 1 0 0 0 4) State.reset = some (.word 0x40001006) := by decide
/-- T30 and T39. -/
theorem test_decHub : retOf (.decHub 0x08186E05) State.reset = some (.hub ⟨1, 3, 0x06E, 5⟩) := by decide
theorem test_decHub_edges : retOf (.decHub 0x07F80000) State.reset = some (.hub ⟨0, 0xFF, 0, 0⟩) := by decide
/-- T37. -/
theorem test_decNode : retOf (.decNode 0x08406E00) State.reset = some (.node ⟨1, 0x08, 0x06E, 0⟩) := by decide
/-- T53 and T57. -/
theorem test_mkvir_too_wide_value : retOf (.mkvir 2 2 5 0x30) State.reset = some (.nat 0x70) := by decide
theorem test_mkvir_widest : retOf (.mkvir 1 1 63 0xFFFFFFFF) State.reset = some (.nat 0x80000000FFFFFFFF) := by decide

/-- T60: one IR shift of `0x00E` in ten bits, one `execute_queue`. -/
theorem test_selVir :
    (nextOf (exec (.selVir tap10) (fed [] [.success] []))).map (fun t => t.out.trace) =
      some [.request (.shiftIr tap10 10 0x00E), .execute] := by decide
/-- T63. -/
theorem test_selVir_irlen_3 : refusalOf (exec (.selVir ⟨7, 3⟩) (fed [] [.success] [])) = some .tapHandleTooNarrow := by decide
/-- T61. -/
theorem test_selVdr :
    (nextOf (exec (.selVdr tap10) (fed [] [.success] []))).map (fun t => (t.out.trace, t.far.ir)) =
      some ([.request (.shiftIr tap10 10 0x00C), .execute], some 0x0C) := by decide
/-- T64. -/
theorem test_nibscan : retOf .nibscan (fed [] [.success] [0x5]) = some (.nat 5) := by decide
/-- T65: the stream `5, 0, E, 6, 8, 1, 8, 0`. -/
theorem test_read32 :
    retOf .read32 (fed [] (List.replicate 8 .success) [5, 0, 0xE, 6, 8, 1, 8, 0]) = some (.word 0x08186E05) := by decide
/-- T66: the third `execute_queue` fails. -/
theorem test_read32_third_fails :
    (nextOf (exec .read32 (fed [] [.success, .success, .transportError tok0] [5, 0]))).map
      (fun t => (t.out.trace.length, t.out.ret, t.result, t.errToken)) =
      some (6, .nothing, .transportError, some (.chain tok0)) := by decide
/-- T67. -/
theorem test_hubAddr0 :
    (nextOf (exec .hubAddr0 (fed [] [.success] []))).map (fun t => t.out.trace) =
      some [.request (.shiftDr 64 (some 0) none), .execute] := by decide
theorem test_resetTap : (nextOf (exec .resetTap State.reset)).map (fun t => t.queue) = some [.resetTap] := by decide
/-- R162: the low `w` bits of the buffer (T5). -/
theorem test_shiftIr :
    (nextOf (exec (.shiftIr tap10 10 .caller) (withBuffer [0x0E, 0x00]))).map (fun t => t.queue) =
      some [.shiftIr tap10 10 0x00E] := by decide
/-- R163: a scan that captures and shifts nothing particular in. -/
theorem test_shiftDr :
    (nextOf (exec (.shiftDr 4 none (some .capbuf)) State.reset)).map (fun t => t.queue) =
      some [.shiftDr 4 none (some .capbuf)] := by decide
/-- R164: on success the capture buffer is filled and the queue empty. -/
theorem test_execute_success :
    (nextOf (exec .execute { fed [] [.success] [0xE] with queue := [.shiftDr 4 none (some .capbuf)] })).map
      (fun t => (t.mem.capbuf, t.queue, t.env.captures)) = some ([0x0E], [], []) := by decide
/-- R167, R201: a failure in step 9 withdraws `VALID`. -/
theorem test_execute_failure_in_step_9 :
    (nextOf (exec .execute { fed [] [.transportError tok0] [] with
        stage := .rcSelVdr, valid := true, queue := [.shiftIr tap10 10 0x0C] })).map
      (fun t => (t.stage, t.valid, t.errStage.code, t.out.responses)) =
      some (.idle, false, 13, [.transportError]) := by decide

theorem test_user1 : (nextOf (exec (.user1 10) State.reset)).map (fun t => t.far.ir) = some (some 0x0E) := by decide
theorem test_user0 : (nextOf (exec (.user0 10) State.reset)).map (fun t => t.far.ir) = some (some 0x0C) := by decide
/-- R206: the far end after a routed word of P1. -/
theorem test_routedVir :
    (nextOf (exec (.routedVir 2 5 2 0x10) { State.reset with far := ⟨some 0x0E, none, none⟩ })).map (fun t => t.far.vir) =
      some (some ⟨7, 0x50⟩) := by decide
theorem test_zeroFill :
    (nextOf (exec .zeroFill { State.reset with far := ⟨some 0x0E, none, none⟩ })).map (fun t => t.far.vir) =
      some (some ⟨64, 0⟩) := by decide
/-- T21. -/
theorem test_nibble :
    (nextOf (exec (.nibble 0xE) { State.reset with acc := 0x50000000, nibCnt := 1 })).map (fun t => (t.acc, t.nibCnt)) =
      some (0xE5000000, 2) := by decide
/-- R195 on the word of P1. -/
theorem test_hubCfg :
    (nextOf (exec (.hubCfg 1 3 0x06E 5) State.reset)).map (fun t => (t.nodeCount, t.mWidth, t.errRaw, t.errRawValid)) =
      some (3, 5, 0x08186E05, true) := by decide
/-- R197: a node without the tag. -/
theorem test_nodeInfo :
    (nextOf (exec (.nodeInfo 0 0x04 0x06E 1) { State.reset with nodeIdx := 3 })).map (fun t => (t.errRaw, t.found)) =
      some (0x00206E01, false) := by decide
/-- R198: the second of two tagged nodes does not override the first. -/
theorem test_nodeInfoVjtag_first :
    (nextOf (exec (.nodeInfoVjtag 1 0x06E 0) { State.reset with nodeIdx := 2 })).map (fun t => (t.found, t.vjtagAddr)) =
      some (true, 2) := by decide
theorem test_nodeInfoVjtag_second :
    (nextOf (exec (.nodeInfoVjtag 1 0x06E 0) { State.reset with nodeIdx := 3, found := true, vjtagAddr := 2 })).map
      (fun t => (t.found, t.vjtagAddr)) = some (true, 2) := by decide

/-- R41: a success leaves the error registers. -/
theorem test_rspSuccess :
    (nextOf (exec .rspSuccess { State.reset with stage := .rcSelVdr, errStage := .s8Final })).map
      (fun t => (t.stage, t.result.code, t.errStage)) = some (.idle, 0, .s8Final) := by decide
/-- T71. -/
theorem test_rspNoVjtagFound :
    (nextOf (exec .rspNoVjtagFound { State.reset with stage := .s8Final })).map
      (fun t => (t.stage, t.result.code, t.errStage.code, t.errToken)) = some (.idle, 1, 8, none) := by decide
/-- T74. -/
theorem test_rspTransportError :
    (nextOf (exec (.rspTransportError .decodeRange) { State.reset with stage := .s8Final })).map
      (fun t => (t.result.code, t.errStage.code, t.errToken)) = some (2, 8, some .decodeRange) := by decide
/-- T70. -/
theorem test_rspNotDiscovered :
    (nextOf (exec .rspNotDiscovered { State.reset with stage := .r0Check })).map
      (fun t => (t.result.code, t.errStage.code, t.valid)) = some (3, 10, false) := by decide

/-- T77: acceptance of a `discover` invalidates the earlier result. -/
theorem test_discover :
    (nextOf (exec (.discover tap10) published)).map (fun t => (t.stage, t.valid, t.out.ack)) =
      some (.s1Reset, false, .accepted) := by decide
theorem test_discover_busy :
    (nextOf (exec (.discover tap10) { published with stage := .raSelVir })).map (fun t => (t.stage, t.valid, t.out.ack)) =
      some (.raSelVir, true, .notAccepted) := by decide
theorem test_route :
    (nextOf (exec (.route 0x10 tap10) published)).map (fun t => (t.stage, t.valid, t.cmdVir)) =
      some (.r0Check, true, 0x10) := by decide
theorem test_cmdReserved00 :
    (nextOf (exec .cmdReserved00 State.reset)).map (fun t => (t.stage, t.out.ack)) = some (.idle, .notAccepted) := by decide
theorem test_cmdReserved11 :
    (nextOf (exec .cmdReserved11 State.reset)).map (fun t => (t.stage, t.out.ack)) = some (.idle, .notAccepted) := by decide

/-- The step of `RB_VIR_SHIFT` in P1: seven bits, `0x50`. -/
theorem test_step_routed_word :
    (nextOf (step { published with stage := .rbVirShift, cmdVir := 0x10, cmdTap := tap10 })).map
      (fun t => (t.queue, t.awaiting, t.out.trace)) =
      some ([.shiftDr 7 (some 0x50) none], true, [.request (.shiftDr 7 (some 0x50) none), .execute]) := by decide
/-- R293 and U23: a reset in the middle of a command with no request outstanding; the far end was known before. -/
theorem test_step_reset_in_mid_command :
    (nextOf (step { published with
        stage := .s6Derive, far := ⟨some 0x0C, some ⟨64, 0⟩, some 8⟩, env := ⟨[], [], [], 0, true⟩ })).map
      (fun t => (t.stage, t.far, t.out.responses)) = some (.idle, .unknown, []) := by decide
/-- R208 and T74: `n + m = 65`. -/
theorem test_step_range_check :
    (nextOf (step { published with stage := .s8Final, valid := false, found := true, nodeCount := 1, mWidth := 64 })).map
      (fun t => (t.result, t.valid, t.errToken)) = some (.transportError, false, some .decodeRange) := by decide

/-- The host's two functions on the command of P2: it decodes, and the next step runs it. -/
theorem test_table_word_route : decodeTableWord 40 0x42 = some (.route 0x10 exampleTap) := by rfl
theorem test_fetch_word_route :
    (nextOf (step (State.reset.withFetchWord 40 0x42))).map (fun t => (t.stage, t.cmdVir)) = some (.r0Check, 0x10) := by decide

/-! ### Witnesses: for each statement with hypotheses, a state and operands that meet them all -/

/-- The widest field and the whole buffer. -/
theorem witness_PackWritesItsFieldOnly : 64 ≤ 64 ∧ 0 + 64 ≤ 8 * (State.reset.mem.get .drbuf).length := by decide
theorem witness_UnpackReadsItsField : 64 ≤ 64 ∧ 56 + 8 ≤ 8 * (State.reset.mem.get .drbuf).length := by decide
/-- Outside: one bit too wide, one bit beyond the buffer. -/
theorem witness_PackWritesItsFieldOnly_refused : 64 < 65 ∧ 8 * (State.reset.mem.get .drbuf).length < 1 + 64 := by decide
/-- Two fields that meet at bit 8, either way round. -/
theorem witness_UnpackAfterPackRoundTrips :
    8 ≤ 64 ∧ 0 + 8 ≤ 8 * (State.reset.mem.get .drbuf).length ∧ 56 ≤ 64 ∧ 8 + 56 ≤ 8 * (State.reset.mem.get .drbuf).length ∧
      0 + 8 ≤ 8 := by decide
/-- Each clause: width 65; 68 bits of 64. -/
theorem witness_CodecRefusesOutsideTheContract_width : 64 < 65 := by decide
theorem witness_CodecRefusesOutsideTheContract_capacity : 8 ≤ 64 ∧ 8 * (State.reset.mem.get .drbuf).length < 60 + 8 := by decide
/-- A shift of one bit more than the buffer holds. -/
theorem witness_CodecRefusesOutsideTheContract_shift :
    4 ≤ tap10.irlen ∧ 8 * (State.reset.mem.get .drbuf).length < 65 ∧ (some BufId.drbuf = some .drbuf ∨ none = some BufId.drbuf) := by
  decide
/-- The last row of the table, both ends. -/
theorem witness_AfwTableOfEightBitCounts : 7 < 8 ∧ 2 ^ 7 ≤ 128 ∧ 128 < 2 ^ (7 + 1) ∧ 2 ^ 7 ≤ 255 ∧ 255 < 2 ^ (7 + 1) := by
  decide
/-- T52: address and value both fit. -/
theorem witness_MkvirComposesTheRoutedWord : (2#8).toNat < 2 ^ 2 ∧ (0x1F#32).toNat < 2 ^ 5 := by decide
theorem witness_RequestsAreQueuedAndNothingElseHappens :
    4 ≤ tap10.irlen ∧ 10 ≤ 8 * ((withBuffer [0x0E, 0]).mem.get .caller).length ∧
      64 ≤ 8 * (State.reset.mem.get .drbuf).length ∧ 4 ≤ 8 * (State.reset.mem.get .capbuf).length := by decide

/-- One capture outstanding, its answer and its bits on the channel. -/
def capturing : State := { fed [] [.success] [0xE] with queue := [.shiftDr 4 none (some .capbuf)] }

theorem witness_ExecuteSuccessFillsTheCaptureBuffers :
    capturing.env.nextAnswer = .success ∧ capturing.queue = [.shiftDr 4 none (some .capbuf)] ∧
      4 ≤ 8 * (capturing.mem.get .capbuf).length ∧ capturing.env.captures = 0xE :: [] ∧
      capturing.env.answers = .success :: [] := by decide
/-- No bits on the channel: a free value is captured. -/
theorem witness_ExecuteSuccessFillsTheCaptureBuffers_free :
    ({ capturing with env := ⟨[], [.success], [], 0, false⟩ } : State).env.nextAnswer = .success ∧
      ({ capturing with env := ⟨[], [.success], [], 0, false⟩ } : State).queue = [.shiftDr 4 none (some .capbuf)] ∧
      4 ≤ 8 * (({ capturing with env := ⟨[], [.success], [], 0, false⟩ } : State).mem.get .capbuf).length := by decide
theorem witness_ExecuteFailureRaisesTransportError : (fed [] [.transportError tok0] []).env.nextAnswer = .transportError tok0 := by
  decide
/-- The smallest legal handle (T62). -/
theorem witness_SelectsShiftTheirOpcode :
    4 ≤ (Tap.mk 7 4).irlen ∧ (fed [] [.success] []).queue = [] ∧ (fed [] [.success] []).env.nextAnswer = .success := by decide
theorem witness_NarrowTapHandlesAreRefused : (Tap.mk 7 3).irlen < 4 ∧ State.reset.stage = .idle := by decide
theorem witness_NibscanReturnsTheCapturedNibble :
    (fed [] [.success] [5]).queue = [] ∧ (fed [] [.success] [5]).mem.wf = true ∧
      (fed [] [.success] [5]).env.answers = .success :: [] ∧ (fed [] [.success] [5]).env.captures = 5 :: [] := by decide

/-- Eight nibbles of T65. -/
def reading : State := fed [] (List.replicate 8 .success) [5, 0, 0xE, 6, 8, 1, 8, 0]

theorem witness_Read32AssemblesEightNibbles :
    reading.queue = [] ∧ reading.mem.wf = true ∧ reading.env.answers = List.replicate 8 .success ++ [] ∧
      reading.env.captures = 5 :: 0 :: 0xE :: 6 :: 8 :: 1 :: 8 :: 0 :: [] := by decide
/-- The last nibble fails. -/
theorem witness_Read32StopsAtTheFailingNibble :
    7 < 8 ∧ (fed [] (List.replicate 7 .success ++ [.transportError tok0]) []).queue = [] ∧
      (fed [] (List.replicate 7 .success ++ [.transportError tok0]) []).mem.wf = true ∧
      (fed [] (List.replicate 7 .success ++ [.transportError tok0]) []).env.answers =
        List.replicate 7 .success ++ .transportError tok0 :: [] := by decide

/-- `USER1` selected, one success on the channel. -/
def virSelected : State := { fed [] [.success] [] with far := ⟨some 0x0E, none, none⟩ }

theorem witness_HubAddr0ShiftsSixtyFourZeros :
    virSelected.queue = [] ∧ virSelected.env.nextAnswer = .success ∧ virSelected.far.ir = some 0x0E := by decide
theorem witness_MacrosStopAtAFailingRequest :
    4 ≤ tap10.irlen ∧ (fed [] [.transportError tok0] []).queue = [] ∧
      (fed [] [.transportError tok0] []).env.nextAnswer = .transportError tok0 := by decide
theorem witness_JtagInstructionsLoadThePhysicalIr :
    (Instr.user0 10 = .user0 10 ∧ 0x0C = 0x0C) ∧ virSelected.far.ir = some 0x0E := by decide
theorem witness_ShiftedWordsSelectAtTheHub : virSelected.far.ir = some 0x0E := by decide
theorem witness_HubWordSetsCountAndWidth : decode .hubRegister ⟨32, (0x08186E05#32).toNat⟩ = .ok (.hubCfg 1 3 0x06E 5) := by rfl
/-- Each branch: a first match, a later one, no match. -/
theorem witness_NodeWordRecordsTheFirstMatch :
    decode .nodeRegister ⟨32, (0x08406E00#32).toNat⟩ = .ok (.nodeInfoVjtag 1 0x06E 0) ∧ State.reset.found = false := ⟨rfl, rfl⟩
theorem witness_NodeWordRecordsTheFirstMatch_untagged :
    decode .nodeRegister ⟨32, (0x00206E01#32).toNat⟩ = .ok (.nodeInfo 0 0x04 0x06E 1) := by rfl
theorem witness_RegisterWordsCompleteFromTheirFields :
    0x09#8 ≠ 0x08#8 ∧ State.reset.found = false ∧ (State.reset.recordMatch).found = true := by decide
/-- `node_id` 8 and its neighbour 9. -/
theorem witness_EveryRegisterWordDecodes :
    (0x00400000#32).toNat / 2 ^ 19 % 2 ^ 8 = 0x08 ∧ (0x00480000#32).toNat / 2 ^ 19 % 2 ^ 8 ≠ 0x08 := by decide
theorem witness_FailuresEndTheCommandInOneStep :
    Instr.rspTransportError .decodeRange = .rspTransportError .decodeRange ∧ ResultCode.transportError = .transportError ∧
      some ErrToken.decodeRange = some .decodeRange := by decide
theorem witness_DiscoverIsAcceptedWhenIdle : published.stage = .idle ∧ 4 ≤ (Tap.mk 7 4).irlen := by decide
theorem witness_RouteIsAcceptedWhenIdle : published.stage = .idle ∧ 4 ≤ (Tap.mk 7 4).irlen := by decide

/-- Busy in the first stage. -/
def busyReset : State := { fed [] [.success] [] with stage := .s1Reset, cmdTap := tap10 }

theorem witness_OtherCommandsAreNotAccepted : busyReset.stage ≠ .idle := by decide
/-- The narrowest and the widest routed word are well formed. -/
theorem witness_DecodeOfEncodeIsTheInstruction :
    WellFormed (.routedVir 1 0 1 0) ∧ WellFormed (.routedVir 1 63 1 (2 ^ 63 - 1)) ∧
      encode (.routedVir 2 5 2 0x10) = some (.virtualIr 2 5, ⟨7, 0x50⟩) := by decide

/-- The channels of P2's first command. -/
def routing : State := fed [⟨0x42, tap10⟩] [] []

theorem witness_StepRunsTheDecodedCommand :
    routing.env.resetReq = false ∧ routing.stage = .idle ∧ routing.env.commands = ⟨0x42, tap10⟩ :: [] ∧
      decode (.command tap10) ⟨34, (0x42#34).toNat⟩ = .ok (.route 0x10 tap10) := ⟨rfl, rfl, rfl, rfl⟩

/-- Words complete in steps 5 and 7. -/
def hubRead : State := { State.reset with stage := .s5HubRead, nibCnt := 8, acc := 0x08186E05, cmdTap := tap10 }
def nodeRead : State :=
  { State.reset with
    stage := .s7Enum, nibCnt := 8, nodeIdx := 2, nodeCount := 3, acc := 0x08406E00, errRawValid := true, cmdTap := tap10 }

theorem witness_StepRunsTheStagesOperation_reset : busyReset.stage = .s1Reset ∧ busyReset.awaiting = false := by decide
theorem witness_StepRunsTheStagesOperation_hub :
    hubRead.stage = .s5HubRead ∧ hubRead.awaiting = false ∧ hubRead.nibCnt = 8 ∧
      decode .hubRegister ⟨32, hubRead.acc.toNat⟩ = .ok (.hubCfg 1 3 0x06E 5) := ⟨rfl, rfl, rfl, rfl⟩
theorem witness_StepRunsTheStagesOperation_node :
    nodeRead.stage = .s7Enum ∧ nodeRead.awaiting = false ∧ nodeRead.nibCnt = 8 ∧ nodeRead.nodeIdx ≠ 0 ∧
      decode .nodeRegister ⟨32, nodeRead.acc.toNat⟩ = .ok (.nodeInfoVjtag 1 0x06E 0) :=
  ⟨rfl, rfl, rfl, by decide, rfl⟩

/-- A select of the routed scan outstanding, and how it is answered. -/
def selecting (a : Answer) : State :=
  { published with
    stage := .raSelVir, awaiting := true, cmdTap := tap10, cmdKind := .route
    queue := [.shiftIr tap10 10 0x0E], env := ⟨[], [a], [], 0, false⟩ }

/-- The failing entries inside a command: step 5 of a `discover`, step 9 of one, and the same stage of a `ROUTE`. -/
theorem witness_Read32StopsAtTheFailingNibble_busy :
    0 < 8 ∧ ({ fed [] [.transportError tok0] [] with stage := .s5HubRead, cmdTap := tap10 } : State).queue = [] ∧
      ({ fed [] [.transportError tok0] [] with stage := .s5HubRead, cmdTap := tap10 } : State).mem.wf = true ∧
      ({ fed [] [.transportError tok0] [] with stage := .s5HubRead, cmdTap := tap10 } : State).env.answers =
        List.replicate 0 .success ++ .transportError tok0 :: [] ∧
      ({ fed [] [.transportError tok0] [] with stage := .s5HubRead, cmdTap := tap10 } : State).stage ≠ .idle := by decide
theorem witness_MacrosStopAtAFailingRequest_busy :
    4 ≤ tap10.irlen ∧ ({ selecting (.transportError tok0) with cmdKind := .discover, awaiting := false, queue := [] } : State).queue = [] ∧
      ({ selecting (.transportError tok0) with cmdKind := .discover, awaiting := false, queue := [] } : State).env.nextAnswer =
        .transportError tok0 ∧
      ({ selecting (.transportError tok0) with cmdKind := .discover, awaiting := false, queue := [] } : State).stage ≠ .idle := by
  decide
theorem witness_ExecuteFailureRaisesTransportError_busy :
    (selecting (.transportError tok0)).env.nextAnswer = .transportError tok0 ∧ (selecting (.transportError tok0)).stage ≠ .idle := by
  decide

theorem witness_StepRunsTheStagesOperation_failure :
    (selecting (.transportError tok0)).stage ≠ .idle ∧ (selecting (.transportError tok0)).awaiting = true ∧
      (selecting (.transportError tok0)).env.nextAnswer = .transportError tok0 := by decide
/-- The stages that issue a select, the zero fill, a nibble or the routed word, in P1's discovery; the narrowest handle. -/
def issuing (st : Stage) : State := { published with stage := st, cmdTap := ⟨7, 4⟩ }

/-- A command of either kind at the start of the routed scan. -/
def routedWith (k : CmdKind) : State := { issuing .raSelVir with cmdKind := k }

theorem witness_StepRunsTheStagesOperation_select :
    (issuing .s2SelVir).awaiting = false ∧ 4 ≤ (issuing .s2SelVir).cmdTap.irlen ∧ (issuing .s2SelVir).stage = .s2SelVir ∧
      (issuing .rcSelVdr).awaiting = false ∧ 4 ≤ (issuing .rcSelVdr).cmdTap.irlen ∧ (issuing .rcSelVdr).stage = .rcSelVdr := by
  decide
theorem witness_StepRunsTheStagesOperation_zeroFill :
    (issuing .s3HubAddr0).stage = .s3HubAddr0 ∧ (issuing .s3HubAddr0).awaiting = false := by decide
/-- The last nibble of a word. -/
theorem witness_StepRunsTheStagesOperation_nibble :
    ({ issuing .s7Enum with nibCnt := 7 } : State).stage = .s7Enum ∧ ({ issuing .s7Enum with nibCnt := 7 } : State).awaiting = false ∧
      ({ issuing .s7Enum with nibCnt := 7 } : State).nibCnt.toNat < 8 ∧
      ({ issuing .s7Enum with nibCnt := 7 } : State).mem.wf = true := by decide
theorem witness_StepRunsTheStagesOperation_derive :
    (issuing .s6Derive).stage = .s6Derive ∧ (issuing .s6Derive).awaiting = false := by decide
/-- The loop is entered, with nodes to read and with none. -/
theorem witness_StepRunsTheStagesOperation_enumerate :
    ({ issuing .s7Enum with nibCnt := 8, nodeIdx := 0 } : State).nibCnt = 8 ∧
      ({ issuing .s7Enum with nibCnt := 8, nodeIdx := 0 } : State).nodeIdx = 0 ∧
      ({ issuing .s7Enum with nibCnt := 8, nodeIdx := 0 } : State).nodeCount = 3 ∧
      ({ issuing .s7Enum with nibCnt := 8, nodeIdx := 0, nodeCount := 0 } : State).nodeCount = 0 := by decide
theorem witness_StepRunsTheStagesOperation_handoff :
    (issuing .s9Handoff).stage = .s9Handoff ∧ (issuing .s9Handoff).awaiting = false := by decide
/-- A routed width of 64. -/
theorem witness_StepRunsTheStagesOperation_routed :
    ({ issuing .rbVirShift with mWidth := 62 } : State).stage = .rbVirShift ∧
      ({ issuing .rbVirShift with mWidth := 62 } : State).awaiting = false ∧
      ({ issuing .rbVirShift with mWidth := 62 } : State).valid = true ∧
      ({ issuing .rbVirShift with mWidth := 62 } : State).routedWidth = 64 ∧
      ({ issuing .rbVirShift with mWidth := 62 } : State).mem.wf = true := by decide

/-- A request outstanding in each stage that issues one, answered `success`. -/
def completing (st : Stage) (r : Request) : State :=
  { published with stage := st, awaiting := true, cmdTap := tap10, queue := [r], env := ⟨[], [.success], [0xE], 0, false⟩ }

theorem witness_StepGoesOnWhenTheRequestCompletes_discover :
    (completing .s1Reset .resetTap).env.resetReq = false ∧ (completing .s1Reset .resetTap).awaiting = true ∧
      (completing .s1Reset .resetTap).env.nextAnswer = .success ∧
      (completing .s2SelVir (selectRequest tap10 0x0E)).env.nextAnswer = .success ∧
      (completing .s3HubAddr0 (.shiftDr 64 (some 0) none)).env.nextAnswer = .success ∧
      (completing .s4SelVdr (selectRequest tap10 0x0C)).env.nextAnswer = .success ∧
      (completing .s5HubRead nibbleRequest).env.nextAnswer = .success ∧
      (completing .s7Enum nibbleRequest).env.nextAnswer = .success := by decide
theorem witness_StepGoesOnWhenTheRequestCompletes_route :
    (selecting .success).env.resetReq = false ∧ (selecting .success).stage = .raSelVir ∧ (selecting .success).awaiting = true ∧
      (selecting .success).env.nextAnswer = .success ∧
      (completing .rbVirShift (.shiftDr 7 (some 0x50) none)).env.nextAnswer = .success ∧
      (completing .rcSelVdr (selectRequest tap10 0x0C)).env.nextAnswer = .success := by decide

/-- Step 8 with a node found and a routed width of 64 or 65; step 8 with none found; the check of a route. -/
def finalizing (m : BitVec 8) : State :=
  { State.reset with
    stage := .s8Final, found := true, vjtagAddr := 1, nodeIdx := 1, nodeCount := 1, mWidth := m, errRawValid := true
    cmdTap := tap10 }

theorem witness_StepRunsTheStagesOperation_final :
    (finalizing 63).stage = .s8Final ∧ (finalizing 63).awaiting = false ∧ (finalizing 63).found = true ∧
      (finalizing 63).routedWidth = 64 ∧ (finalizing 64).routedWidth = 65 := by decide
theorem witness_StepRunsTheStagesOperation_notFound :
    ({ finalizing 63 with found := false } : State).found = false ∧
      ({ finalizing 63 with found := false } : State).stage = .s8Final := by decide
theorem witness_StepRunsTheStagesOperation_check :
    ({ published with stage := .r0Check } : State).valid = true ∧ ({ State.reset with stage := .r0Check } : State).valid = false := by
  decide

/-- Coherent states: idle with a published result, a select outstanding, a complete hub word, step 8. -/
theorem published_coherent : published.Coherent := by constructor <;> decide
theorem selecting_coherent : (selecting (.transportError tok0)).Coherent := by constructor <;> decide
theorem hubRead_coherent : hubRead.Coherent := by constructor <;> decide
theorem busyReset_coherent : busyReset.Coherent := by constructor <;> decide
theorem finalizing_coherent : (finalizing 63).Coherent := by constructor <;> decide

theorem witness_StepKeepsCoherent : hubRead.Coherent ∧ ∃ t, step hubRead = .next t := ⟨hubRead_coherent, _, rfl⟩
/-- Busy; and idle with a command of the smallest legal handle. -/
theorem witness_StepAnswersWhateverTheOracle :
    (selecting (.transportError tok0)).Coherent ∧ (selecting (.transportError tok0)).stage ≠ .idle := ⟨selecting_coherent, by decide⟩
theorem witness_StepAnswersWhateverTheOracle_idle :
    ({ published with env := ⟨[⟨0x42, ⟨7, 4⟩⟩], [], [], 0, false⟩ } : State).Coherent ∧ 4 ≤ (Tap.mk 7 4).irlen :=
  ⟨by constructor <;> decide, by decide⟩
/-- In the middle of a command with a request outstanding, in the middle of one with none, and between commands. -/
theorem witness_EngineResetEndsTheCommandSilently :
    ({ selecting .success with env := ⟨[], [], [], 0, true⟩ } : State).env.resetReq = true ∧
      ({ selecting .success with env := ⟨[], [], [], 0, true⟩ } : State).stage ≠ .idle ∧
      ({ hubRead with env := ⟨[], [], [], 0, true⟩ } : State).stage ≠ .idle ∧
      ({ hubRead with env := ⟨[], [], [], 0, true⟩ } : State).awaiting = false ∧
      ({ published with env := ⟨[], [], [], 0, true⟩ } : State).stage = .idle := by decide
/-- `VALID` rises in step 8, and falls by reset, by a `discover`, and by a failure in step 9. -/
theorem witness_ValidFollowsItsLifecycle_rises :
    ∃ t, step (finalizing 63) = .next t ∧ (finalizing 63).valid = false ∧ t.valid = true := ⟨_, rfl, by decide, by decide⟩
theorem witness_ValidFollowsItsLifecycle_discover :
    ∃ t, step { published with env := ⟨[⟨1, tap10⟩], [], [], 0, false⟩ } = .next t ∧ t.valid = false := ⟨_, rfl, by decide⟩
theorem witness_ValidFollowsItsLifecycle_failure :
    ∃ t, step { selecting (.transportError tok0) with cmdKind := .discover } = .next t ∧ t.valid = false := ⟨_, rfl, by decide⟩
theorem witness_ValidFollowsItsLifecycle_reset :
    ∃ t, step { published with env := ⟨[], [], [], 0, true⟩ } = .next t ∧ t.valid = false := ⟨_, rfl, by decide⟩
theorem witness_OnlyRegisterWordsWriteTheResultFields_hub :
    ∃ t, exec (.hubCfg 1 3 0x06E 5) State.reset = .next t ∧ t.nodeCount ≠ State.reset.nodeCount := ⟨_, rfl, by decide⟩
theorem witness_OnlyRegisterWordsWriteTheResultFields_node :
    ∃ t, exec (.nodeInfoVjtag 1 0x06E 0) State.reset = .next t ∧ t.found = true ∧ State.reset.found = false :=
  ⟨_, rfl, by decide, by decide⟩
/-- A step in the order, and a failure. -/
theorem witness_StagesFollowTheFixedOrder :
    ∃ t, step (selecting .success) = .next t ∧ (selecting .success).env.resetReq = false ∧ t.stage = .rbVirShift :=
  ⟨_, rfl, by decide, by decide⟩
theorem witness_StagesFollowTheFixedOrder_failure :
    ∃ t, step (selecting (.transportError tok0)) = .next t ∧ t.stage = .idle ∧ t.errStage = .raSelVir :=
  ⟨_, rfl, by decide, by decide⟩
theorem witness_RouteKeepsTheDiscoveryResult :
    ∃ t, step (selecting (.transportError tok0)) = .next t ∧ (selecting (.transportError tok0)).env.resetReq = false ∧
      (selecting (.transportError tok0)).cmdKind = .route ∧ (selecting (.transportError tok0)).stage = .raSelVir :=
  ⟨_, rfl, by decide, by decide, by decide⟩
theorem witness_RouteKeepsTheDiscoveryResult_accepted :
    (∃ t, step routing = .next t) ∧ routing.env.resetReq = false ∧ routing.stage = .idle ∧
      routing.env.commands = ⟨0x42, tap10⟩ :: [] ∧ (0x42#34).extractLsb' 0 2 = 0b10#2 :=
  ⟨⟨_, rfl⟩, by decide, by decide, by decide, by decide⟩
/-- A command that ends with this step, and one that goes on. -/
theorem witness_OneResponsePerCommand_ends :
    ∃ t, step (selecting (.transportError tok0)) = .next t ∧ t.out.responses = [.transportError] := ⟨_, rfl, by decide⟩
theorem witness_OneResponsePerCommand_goes_on :
    ∃ t, step (selecting .success) = .next t ∧ t.out.responses = [] := ⟨_, rfl, by decide⟩
theorem witness_OnlyTheListedRequestsAreIssued :
    ({ published with stage := .rbVirShift, cmdTap := tap10, cmdKind := .route } : State).Coherent ∧
      ∃ t, step { published with stage := .rbVirShift, cmdTap := tap10, cmdKind := .route } = .next t :=
  ⟨by constructor <;> decide, exists_of_nextOf _ (by decide)⟩
/-- One request outstanding, and none. -/
theorem witness_QueueHoldsAtMostOneRequest :
    (∃ t, step (selecting .success) = .next t) ∧ (selecting .success).env.resetReq = false ∧
      ((selecting .success).stage = .idle → (selecting .success).awaiting = false) ∧
      (selecting .success).queue.length = (selecting .success).awaiting.toNat := ⟨⟨_, rfl⟩, by decide, by decide, by decide⟩
theorem witness_QueueHoldsAtMostOneRequest_none :
    (∃ t, step busyReset = .next t) ∧ busyReset.queue.length = busyReset.awaiting.toNat := ⟨⟨_, rfl⟩, by decide⟩
theorem witness_TransportFailureStopsTheCommand :
    (selecting (.transportError tok0)).env.resetReq = false ∧ (selecting (.transportError tok0)).stage ≠ .idle ∧
      (selecting (.transportError tok0)).awaiting = true ∧ (selecting (.transportError tok0)).env.nextAnswer = .transportError tok0 := by
  decide
theorem witness_EveryOperationKeepsTheBufferSizes :
    State.reset.mem.wf = true ∧ ∃ t, exec (.pack .drbuf 0 64 0) State.reset = .next t :=
  ⟨by decide, exists_of_nextOf _ (by decide)⟩
/-- A step from a state whose `IRBUF` has the size of the latched handle: a command accepted. -/
theorem witness_EveryOperationKeepsTheBufferSizes_step :
    (∃ t, step routing = .next t) ∧ routing.mem.irbuf.length = (routing.cmdTap.irlen + 7) / 8 := ⟨⟨_, rfl⟩, by decide⟩
/-- R231: the acceptance of a `ROUTE` keeps the contents of `IRBUF`, all of them with a handle of the same width. -/
theorem test_route_keeps_irbuf :
    ((nextOf (exec (.route 0 tap10) { State.reset with mem := ⟨[0x0E, 0x40], [], [], []⟩ })).map fun t => t.mem.irbuf) =
        some [0x0E, 0x40] ∧
      ((nextOf (exec (.route 0 ⟨7, 4⟩) { State.reset with mem := ⟨[0x0E, 0x40], [], [], []⟩ })).map fun t => t.mem.irbuf) =
        some [0x0E] := by decide
/-- R38: `IRBUF` holds the `ceil(10/8)` bytes of the handle from acceptance on, so a field of `IRLEN` bits in it is no refusal. -/
theorem test_irbuf_after_acceptance :
    ((nextOf (exec (.discover tap10) State.reset)).bind fun t => nextOf (exec (.shiftIr tap10 10 .irbuf) t)).isSome ∧
      ((nextOf (exec (.route 0 tap10) State.reset)).map fun t => t.mem.irbuf.length) = some 2 := by decide
theorem witness_EngineNeverReadsTheFarEnd : ∃ t, step (selecting .success) = .next t := ⟨_, rfl⟩
theorem witness_HostReadsOnlyWhatHoldsAValue :
    published.valid = true ∧ State.reset.valid = false ∧ State.reset.responded = false ∧
      State.reset.succeed.responded = true ∧ State.reset.errRawValid = false ∧ nodeRead.errRawValid = true := by decide
/-- The fields of the Discovery Result: published and idle, in mid-route, and in step 9 of a `discover`. -/
theorem witness_HostReadsOnlyWhatHoldsAValue_run :
    published.valid = true ∧ published.stage = .idle ∧
      (routedWith .route).valid = true ∧ (routedWith .route).cmdKind = .route ∧
      (routedWith .discover).valid = true ∧ (routedWith .discover).stage ≠ .idle ∧ (routedWith .discover).cmdKind = .discover := by
  decide
/-- R82: no field of the Discovery Result is read in step 9 of a `discover`, though `VALID` is 1; in a `route_to_node` it is. -/
theorem test_hostRead_in_a_run :
    (routedWith .discover).hostRead .nodeCount = none ∧ (routedWith .route).hostRead .nodeCount = some (.bits 3) := by decide
/-- `ERR_STAGE` and `ERR_TOKEN`: before the first response, after a `transport_error`, and after a success that followed it. -/
theorem witness_HostReadsOnlyWhatHoldsAValue_error :
    State.reset.errStage = .idle ∧ State.reset.result ≠ .transportError ∧
      ((finalizing 64).raise (.transportError .decodeRange)).errStage ≠ .idle ∧
      ((finalizing 64).raise (.transportError .decodeRange)).result = .transportError ∧
      ((finalizing 64).raise (.transportError .decodeRange)).errToken = some .decodeRange ∧
      ((finalizing 64).raise (.transportError .decodeRange)).succeed.result ≠ .transportError := by decide
/-- Busy, and in step 9; idle with a command, and with none. -/
theorem witness_LatchesAreConstantUntilTheResponse_busy :
    (∃ t, step (selecting .success) = .next t) ∧ (selecting .success).env.resetReq = false ∧ (selecting .success).stage ≠ .idle ∧
      (∃ t, step (issuing .s9Handoff) = .next t) ∧ (issuing .s9Handoff).stage = .s9Handoff ∧ (issuing .s9Handoff).awaiting = false :=
  ⟨⟨_, rfl⟩, by decide, by decide, ⟨_, rfl⟩, by decide, by decide⟩
theorem witness_LatchesAreConstantUntilTheResponse_idle :
    (∃ t, step routing = .next t) ∧ routing.env.resetReq = false ∧ routing.stage = .idle ∧
      (∃ t, step published = .next t) ∧ published.stage = .idle :=
  ⟨⟨_, rfl⟩, by decide, by decide, ⟨_, rfl⟩, by decide⟩
theorem witness_RouteBeforeDiscoveryFailsFast :
    routing.env.resetReq = false ∧ routing.stage = .idle ∧ routing.valid = false ∧
      routing.env.commands = ⟨0x42, tap10⟩ :: [] ∧ (0x42#34).extractLsb' 0 2 = 0b10#2 ∧ 4 ≤ tap10.irlen := by decide

/-- A published result, a route on the channel, three successes. -/
def routingPublished : State := { published with env := ⟨[⟨0x42, tap10⟩], List.replicate 3 .success, [], 0, false⟩ }

theorem witness_RouteAfterDiscoverySelectsTheNode :
    routingPublished.Coherent ∧ routingPublished.env.resetReq = false ∧ routingPublished.stage = .idle ∧
      routingPublished.valid = true ∧ routingPublished.queue = [] ∧ routingPublished.env.commands = ⟨0x42, tap10⟩ :: [] ∧
      (0x42#34).extractLsb' 0 2 = 0b10#2 ∧ 4 ≤ tap10.irlen ∧
      routingPublished.env.answers = List.replicate 3 .success ++ [] :=
  ⟨by constructor <;> decide, by decide, by decide, by decide, by decide, by decide, by decide, by decide, by decide⟩

/-- The hub of P1: three nodes, `m = 5`, the second one tagged. -/
def hubP1 : BitVec 32 := 0x08186E05
def nodesP1 : List (BitVec 32) := [0x00006E00, 0x08406E00, 0x00206E01]
def discoverP1 : State := fed [⟨1, tap10⟩] (List.replicate 39 .success) (streamOf (hubP1 :: nodesP1))

theorem witness_DiscoverFindsTheFirstVjtagNode :
    discoverP1.Coherent ∧ discoverP1.env.resetReq = false ∧ discoverP1.stage = .idle ∧ discoverP1.queue = [] ∧
      discoverP1.env.commands = ⟨1, tap10⟩ :: [] ∧ (1#34).extractLsb' 0 2 = 0b01#2 ∧ 4 ≤ tap10.irlen ∧
      nodesP1.length = nodeCountOf hubP1 ∧ nodesP1.findIdx? (fun w => nodeIdOf w == 0x08) = some 1 ∧
      2 = addressFieldWidth (nodeCountOf hubP1) ∧ 2 + mWidthOf hubP1 ≤ 64 ∧
      discoverP1.env.answers = List.replicate (15 + 8 * nodesP1.length) .success ++ [] ∧
      discoverP1.env.captures = streamOf (hubP1 :: nodesP1) ++ [] :=
  ⟨by constructor <;> decide, by decide, by decide, by decide, by decide, by decide, by decide, by decide, by decide,
    by decide, by decide, (List.append_nil _).symm, (List.append_nil _).symm⟩

/-- The hub of P2's second command: two nodes, none tagged. -/
def hubP2 : BitVec 32 := 0x00106E04
def nodesP2 : List (BitVec 32) := [0x00206E00, 0x00006E03]
def discoverP2 : State := fed [⟨1, tap10⟩] (List.replicate 28 .success) (streamOf (hubP2 :: nodesP2))

theorem witness_DiscoverWithoutVjtagNodeFindsNothing :
    discoverP2.Coherent ∧ discoverP2.env.resetReq = false ∧ discoverP2.stage = .idle ∧ discoverP2.queue = [] ∧
      discoverP2.env.commands = ⟨1, tap10⟩ :: [] ∧ (1#34).extractLsb' 0 2 = 0b01#2 ∧ 4 ≤ tap10.irlen ∧
      nodesP2.length = nodeCountOf hubP2 ∧ (∀ w ∈ nodesP2, nodeIdOf w ≠ 0x08) ∧
      discoverP2.env.answers = List.replicate (12 + 8 * nodesP2.length) .success ++ [] ∧
      discoverP2.env.captures = streamOf (hubP2 :: nodesP2) ++ [] :=
  ⟨by constructor <;> decide, by decide, by decide, by decide, by decide, by decide, by decide, by decide,
    by simp [nodesP2, nodeIdOf], (List.append_nil _).symm, (List.append_nil _).symm⟩
/-- A hub with no nodes (P5). -/
theorem witness_DiscoverWithoutVjtagNodeFindsNothing_empty :
    ([] : List (BitVec 32)).length = nodeCountOf 0x00006E04 ∧ ∀ w ∈ ([] : List (BitVec 32)), nodeIdOf w ≠ 0x08 := by
  exact ⟨rfl, fun w h => nomatch h⟩
theorem witness_EveryCommandEnds : busyReset.Coherent ∧ busyReset.env.resetReq = false ∧ busyReset.stage ≠ .idle :=
  ⟨busyReset_coherent, by decide, by decide⟩

end Sys2Proof.Tests
end

/-!
PROOF. What the shared moves of the sequencer do to single registers, said once, beside the field lemmas of the model's own laws.
-/

namespace Sys2Proof.Machine

/-! ### The end of a request, by stage -/

section
variable {s : State}

theorem afterRequest_s1Reset (hs : s.stage = .s1Reset) : s.afterRequest = s.goto .s2SelVir := by
  simp [State.afterRequest, hs]

theorem afterRequest_s2SelVir (hs : s.stage = .s2SelVir) : s.afterRequest = s.goto .s3HubAddr0 := by
  simp [State.afterRequest, hs]

theorem afterRequest_s3HubAddr0 (hs : s.stage = .s3HubAddr0) : s.afterRequest = s.goto .s4SelVdr := by
  simp [State.afterRequest, hs]

theorem afterRequest_s4SelVdr (hs : s.stage = .s4SelVdr) : s.afterRequest = s.startRead.goto .s5HubRead := by
  simp [State.afterRequest, hs]

theorem Stage.reads_iff (st : Stage) : st.reads = true ↔ st = .s5HubRead ∨ st = .s7Enum := by
  cases st <;> simp [Stage.reads]

theorem afterRequest_of_reads (hs : s.stage.reads = true) : s.afterRequest = s.takeNibble s.capturedNibble := by
  rcases (Stage.reads_iff _).1 hs with hs | hs <;> simp [State.afterRequest, hs]

theorem afterRequest_raSelVir (hs : s.stage = .raSelVir) : s.afterRequest = s.goto .rbVirShift := by
  simp [State.afterRequest, hs]

theorem afterRequest_rbVirShift (hs : s.stage = .rbVirShift) : s.afterRequest = s.goto .rcSelVdr := by
  simp [State.afterRequest, hs]

theorem afterRequest_rcSelVdr (hs : s.stage = .rcSelVdr) : s.afterRequest = s.succeed := by
  simp [State.afterRequest, hs]

theorem afterRequest_of_not_requests (hs : s.stage.requests = false) : s.afterRequest = s := by
  unfold State.afterRequest; cases hst : s.stage <;> simp_all [Stage.requests]

end

section
variable (s : State)

/-! ### Registers that the end of a request leaves alone -/

@[simp] theorem State.afterRequest_valid : s.afterRequest.valid = s.valid := by
  unfold State.afterRequest; split <;> rfl

@[simp] theorem State.afterRequest_cmdKind : s.afterRequest.cmdKind = s.cmdKind := by
  unfold State.afterRequest; split <;> rfl

@[simp] theorem State.afterRequest_cmdTap : s.afterRequest.cmdTap = s.cmdTap := by
  unfold State.afterRequest; split <;> rfl

@[simp] theorem State.afterRequest_cmdVir : s.afterRequest.cmdVir = s.cmdVir := by
  unfold State.afterRequest; split <;> rfl

@[simp] theorem State.afterRequest_mem : s.afterRequest.mem = s.mem := by
  unfold State.afterRequest; split <;> rfl

/-! ### `State.nextNode` -/

theorem State.nextNode_begin (h : s.nodeIdx.toNat < s.nodeCount.toNat) :
    s.nextNode = { s with nodeIdx := s.nodeIdx + 1, acc := 0, nibCnt := 0 } := if_pos h

theorem State.nextNode_end (h : s.nodeCount.toNat ≤ s.nodeIdx.toNat) : s.nextNode = s.goto .s8Final :=
  if_neg (Nat.not_lt.2 h)

@[simp] theorem State.nextNode_valid : s.nextNode.valid = s.valid := by unfold State.nextNode; split <;> rfl
@[simp] theorem State.nextNode_cmdKind : s.nextNode.cmdKind = s.cmdKind := by unfold State.nextNode; split <;> rfl
@[simp] theorem State.nextNode_cmdTap : s.nextNode.cmdTap = s.cmdTap := by unfold State.nextNode; split <;> rfl
@[simp] theorem State.nextNode_cmdVir : s.nextNode.cmdVir = s.cmdVir := by unfold State.nextNode; split <;> rfl
@[simp] theorem State.nextNode_mem : s.nextNode.mem = s.mem := by unfold State.nextNode; split <;> rfl

theorem State.nextNode_stage : s.nextNode.stage = s.stage ∨ s.nextNode.stage = .s8Final := by
  unfold State.nextNode; split
  · exact .inl rfl
  · exact .inr rfl

/-! ### `State.takeNode` -/

/-- A Node Info Register writes `ERR_RAW`, `VJTAG_ADDR` and `FOUND`, and no other register. -/
theorem State.takeNode_eq (w : BitVec 32) :
    s.takeNode w = { s with errRaw := w, vjtagAddr := (s.takeNode w).vjtagAddr, found := (s.takeNode w).found } := by
  unfold State.takeNode; split <;> rfl

@[simp] theorem State.takeNode_valid (w : BitVec 32) : (s.takeNode w).valid = s.valid := by rw [State.takeNode_eq]
@[simp] theorem State.takeNode_nodeCount (w : BitVec 32) : (s.takeNode w).nodeCount = s.nodeCount := by rw [State.takeNode_eq]
@[simp] theorem State.takeNode_stage (w : BitVec 32) : (s.takeNode w).stage = s.stage := by rw [State.takeNode_eq]
@[simp] theorem State.takeNode_awaiting (w : BitVec 32) : (s.takeNode w).awaiting = s.awaiting := by rw [State.takeNode_eq]
@[simp] theorem State.takeNode_nibCnt (w : BitVec 32) : (s.takeNode w).nibCnt = s.nibCnt := by rw [State.takeNode_eq]
@[simp] theorem State.takeNode_nodeIdx (w : BitVec 32) : (s.takeNode w).nodeIdx = s.nodeIdx := by rw [State.takeNode_eq]
@[simp] theorem State.takeNode_cmdKind (w : BitVec 32) : (s.takeNode w).cmdKind = s.cmdKind := by rw [State.takeNode_eq]
@[simp] theorem State.takeNode_cmdTap (w : BitVec 32) : (s.takeNode w).cmdTap = s.cmdTap := by rw [State.takeNode_eq]
@[simp] theorem State.takeNode_cmdVir (w : BitVec 32) : (s.takeNode w).cmdVir = s.cmdVir := by rw [State.takeNode_eq]
@[simp] theorem State.takeNode_mem (w : BitVec 32) : (s.takeNode w).mem = s.mem := by rw [State.takeNode_eq]
@[simp] theorem State.takeNode_errRawValid (w : BitVec 32) : (s.takeNode w).errRawValid = s.errRawValid := by
  rw [State.takeNode_eq]

/-- The recorded match is the old one, or the node whose word is taken. -/
theorem State.takeNode_match (w : BitVec 32) :
    ((s.takeNode w).found = s.found ∧ (s.takeNode w).vjtagAddr = s.vjtagAddr) ∨
      ((s.takeNode w).found = true ∧ (s.takeNode w).vjtagAddr = if s.found then s.vjtagAddr else s.nodeIdx) := by
  unfold State.takeNode; split
  · exact .inr ⟨rfl, rfl⟩
  · exact .inl ⟨rfl, rfl⟩

end

end Sys2Proof.Machine

namespace Sys2Proof.Machine
/-!
PROOF. The invariant of the sequencer, stage by stage. `State.Settled` is what `State.Coherent` asks of an engine with no request
outstanding in every stage, `State.AtStage` what it asks besides in the stage the engine is in. A move is then coherent by the
two facts about its target stage.
-/

/-- What the invariant asks in every stage, with no request outstanding. -/
structure State.Settled (s : State) : Prop where
  memory : s.mem.wf = true
  nibbles : s.nibCnt.toNat ≤ 8
  tap : s.stage ≠ .idle → 4 ≤ s.cmdTap.irlen
  free : s.awaiting = false
  published : s.valid = true →
    1 ≤ s.vjtagAddr.toNat ∧ s.vjtagAddr.toNat ≤ s.nodeCount.toNat ∧ 1 ≤ s.routedWidth ∧ s.routedWidth ≤ 64

/-- The node loop stays within `NODE_COUNT`, and a match recorded so far is one of the nodes read. -/
def State.MatchInRange (s : State) : Prop :=
  s.nodeIdx.toNat ≤ s.nodeCount.toNat ∧ (s.found = true → 1 ≤ s.vjtagAddr.toNat ∧ s.vjtagAddr.toNat ≤ s.nodeIdx.toNat)

/-- What the invariant asks in each stage. -/
def State.AtStage (s : State) : Prop :=
  match s.stage with
  | .idle => True
  | .s1Reset | .s2SelVir | .s3HubAddr0 | .s4SelVdr | .s5HubRead =>
    s.valid = false ∧ s.cmdKind = .discover ∧ s.found = false ∧ s.errRawValid = false
  | .s6Derive => s.valid = false ∧ s.cmdKind = .discover ∧ s.found = false ∧ s.errRawValid = true ∧ s.nibCnt.toNat = 8
  | .s7Enum =>
    s.valid = false ∧ s.cmdKind = .discover ∧ s.errRawValid = true ∧ s.MatchInRange ∧
      (s.nibCnt.toNat < 8 → 1 ≤ s.nodeIdx.toNat)
  | .s8Final => s.valid = false ∧ s.cmdKind = .discover ∧ s.errRawValid = true ∧ s.MatchInRange
  | .s9Handoff => s.valid = true ∧ s.cmdKind = .discover ∧ s.errRawValid = true
  | .r0Check => s.cmdKind = .route ∧ s.errRawValid = false
  | .raSelVir | .rbVirShift | .rcSelVdr => s.valid = true ∧ s.errRawValid = (s.cmdKind == .discover)

/-- Each stage clause of the invariant is an entry of `State.AtStage`. -/
theorem State.Settled.coherent {s : State} (h : s.Settled) (ha : s.AtStage) : s.Coherent := by
  unfold State.AtStage State.MatchInRange at ha
  refine ⟨h.memory, h.nibbles, h.tap, by simp [h.free], h.published, ?_, ?_, ?_, ?_, ?_, ?_, ?_, ?_, ?_, ?_, ?_⟩ <;>
    cases hs : s.stage <;>
    simp_all [Stage.usesResult, Stage.isRouted, Stage.beforeDecode, Stage.beforePublish]

/-- Every entry of `State.AtStage` is a stage clause of the invariant, read at that stage. -/
theorem State.Coherent.atStage {s : State} (h : s.Coherent) : s.AtStage := by
  obtain ⟨-, -, -, -, -, hrouting, hunpub, hdisc, hcheck, hunfound, hderived, henum, hreading, hunset, hset, hrouted⟩ := h
  unfold State.AtStage State.MatchInRange
  cases hs : s.stage <;>
    simp_all [Stage.usesResult, Stage.isRouted, Stage.beforeDecode, Stage.beforePublish]

namespace State.Coherent
variable {s : State}

/-- Between commands the stage asks nothing. -/
theorem of_idle (h : s.Settled) (hs : s.stage = .idle) : s.Coherent := h.coherent (by simp [State.AtStage, hs])

/-- Issuing a request changes buffers, queue and trace only; the stage then waits. -/
theorem issued (h : s.Coherent) (m : Memory) (hm : m.wf = true) (r : Request) (hq : s.stage.requests = true)
    (hn : s.stage.reads = true → s.nibCnt.toNat < 8) : (({ s with mem := m } : State).emit r).await.Coherent :=
  { h with memory := hm, waiting := fun _ => ⟨hq, hn⟩ }

/-- A request that has been served leaves the stage where it was. -/
theorem executed (h : s.Coherent) : s.executed.Coherent :=
  { h with memory := executed_wf s h.memory, waiting := nofun }

theorem executeFailed (h : s.Coherent) : s.executeFailed.Coherent :=
  { h with memory := executeFailed_wf s h.memory, waiting := nofun }

/-- A failure leaves the engine idle, and a published result in range or withdrawn. -/
theorem raise (h : s.Coherent) (c : Condition) : (s.raise c).Coherent :=
  of_idle ⟨h.memory, h.nibbles, fun hi => absurd rfl hi, rfl, fun hv => h.published (by simp_all)⟩ rfl

theorem engineReset : s.engineReset.Coherent :=
  of_idle ⟨rfl, Nat.zero_le 8, fun hi => absurd rfl hi, rfl, nofun⟩ rfl

theorem acceptDiscover (h : s.Coherent) (tap : Tap) (h4 : 4 ≤ tap.irlen) : (s.acceptDiscover tap).Coherent :=
  State.Settled.coherent ⟨h.memory, h.nibbles, fun _ => h4, rfl, nofun⟩ ⟨rfl, rfl, rfl, rfl⟩

theorem acceptRoute (h : s.Coherent) (v : BitVec 32) (tap : Tap) (h4 : 4 ≤ tap.irlen) : (s.acceptRoute v tap).Coherent :=
  State.Settled.coherent ⟨h.memory, h.nibbles, fun _ => h4, rfl, h.published⟩ ⟨rfl, rfl⟩

/-! ### The moves of a stage with no request outstanding -/

section
variable (h : s.Coherent) (hw : s.awaiting = false)
include h hw

/-- To a stage that asks nothing new; a command in progress stays in progress. -/
theorem goto (st : Stage) (hs : s.stage ≠ .idle) (ha : (s.goto st).AtStage) : (s.goto st).Coherent :=
  State.Settled.coherent ⟨h.memory, h.nibbles, fun _ => h.tap hs, hw, h.published⟩ ha

theorem takeNibble (hs : s.stage.reads = true) (hn : s.nibCnt.toNat < 8) (x : Nat) : (s.takeNibble x).Coherent := by
  have hn' : (s.nibCnt + 1).toNat = s.nibCnt.toNat + 1 := by bv_omega
  have ha := h.atStage
  refine State.Settled.coherent ⟨h.memory, by rw [State.takeNibble_nibCnt, hn']; omega, h.tap, hw, h.published⟩ ?_
  rcases (Stage.reads_iff _).1 hs with hs | hs <;> simp only [State.AtStage, State.takeNibble_stage, hs] at ha ⊢
  · exact ha
  · obtain ⟨hv, hk, hr, hm, hi⟩ := ha
    exact ⟨hv, hk, hr, hm, fun _ => hi hn⟩

/-- The end of a request: the stage goes on to the next of its phase, or the command has succeeded. -/
theorem afterRequest (hn : s.stage.reads = true → s.nibCnt.toNat < 8) : s.afterRequest.Coherent := by
  have ha := h.atStage
  cases hs : s.stage <;> simp only [State.AtStage, hs] at ha
  case s1Reset => rw [afterRequest_s1Reset hs]; exact h.goto hw _ (by simp [hs]) ha
  case s2SelVir => rw [afterRequest_s2SelVir hs]; exact h.goto hw _ (by simp [hs]) ha
  case s3HubAddr0 => rw [afterRequest_s3HubAddr0 hs]; exact h.goto hw _ (by simp [hs]) ha
  case s4SelVdr =>
    rw [afterRequest_s4SelVdr hs]
    exact State.Settled.coherent ⟨h.memory, by simp, fun _ => h.tap (by simp [hs]), hw, h.published⟩ ha
  case s5HubRead | s7Enum =>
    have hr : s.stage.reads = true := by rw [hs]; rfl
    rw [afterRequest_of_reads hr]
    exact h.takeNibble hw hr (hn hr) _
  case raSelVir => rw [afterRequest_raSelVir hs]; exact h.goto hw _ (by simp [hs]) ha
  case rbVirShift => rw [afterRequest_rbVirShift hs]; exact h.goto hw _ (by simp [hs]) ha
  case rcSelVdr =>
    rw [afterRequest_rcSelVdr hs]
    exact of_idle ⟨h.memory, h.nibbles, fun hi => absurd rfl hi, rfl, h.published⟩ rfl
  case idle | s6Derive | s8Final | s9Handoff | r0Check =>
    rwa [afterRequest_of_not_requests (by rw [hs]; rfl)]

theorem hubWord (hs : s.stage = .s5HubRead) (hn : 8 ≤ s.nibCnt.toNat) (w : BitVec 32) (c m : BitVec 8) :
    ((s.takeHubWord w c m).goto .s6Derive).Coherent := by
  have ha := h.atStage
  simp only [State.AtStage, hs] at ha
  obtain ⟨hv, hk, hf, -⟩ := ha
  exact State.Settled.coherent ⟨h.memory, h.nibbles, fun _ => h.tap (by simp [hs]), hw, by simp [hv]⟩
    ⟨hv, hk, hf, rfl, Nat.le_antisymm h.nibbles hn⟩

theorem startEnum (hs : s.stage = .s6Derive) : s.startEnum.Coherent := by
  have ha := h.atStage
  simp only [State.AtStage, hs] at ha
  obtain ⟨hv, hk, hf, hr, hn⟩ := ha
  exact State.Settled.coherent ⟨h.memory, h.nibbles, fun _ => h.tap (by simp [hs]), hw, h.published⟩
    ⟨hv, hk, hr, ⟨Nat.zero_le _, by simp [hf]⟩, by simp [hn]⟩

/-- The node loop goes on to a node within `NODE_COUNT`, so that `NODE_IDX` does not wrap, or ends. -/
theorem nextNode (hs : s.stage = .s7Enum) : s.nextNode.Coherent := by
  have ha := h.atStage
  simp only [State.AtStage, hs] at ha
  obtain ⟨hv, hk, hr, ⟨hi, hm⟩, -⟩ := ha
  by_cases hlt : s.nodeIdx.toNat < s.nodeCount.toNat
  · have hi' : (s.nodeIdx + 1).toNat = s.nodeIdx.toNat + 1 := by bv_omega
    rw [State.nextNode_begin s hlt]
    refine State.Settled.coherent ⟨h.memory, by simp, h.tap, hw, h.published⟩ ?_
    simp only [State.AtStage, hs, State.MatchInRange, hi']
    exact ⟨hv, hk, hr, ⟨hlt, fun hf => ⟨(hm hf).1, Nat.le_succ_of_le (hm hf).2⟩⟩, fun _ => Nat.succ_pos _⟩
  · rw [State.nextNode_end s (Nat.le_of_not_lt hlt)]
    exact h.goto hw _ (by simp [hs]) ⟨hv, hk, hr, hi, hm⟩

/-- A match recorded from a node's word has that node's address. -/
theorem takeNode (hs : s.stage = .s7Enum) (hi : s.nodeIdx ≠ 0) (w : BitVec 32) : (s.takeNode w).Coherent := by
  have ha := h.atStage
  simp only [State.AtStage, hs] at ha
  obtain ⟨hv, hk, hr, ⟨hc, hm⟩, hrd⟩ := ha
  have hpos : 1 ≤ s.nodeIdx.toNat := by bv_omega
  refine State.Settled.coherent ⟨by simp [h.memory], by simp [h.nibbles], by simpa using h.tap, by simp [hw], by simp [hv]⟩ ?_
  simp only [State.AtStage, State.takeNode_stage, hs]
  refine ⟨by simp [hv], by simp [hk], by simp [hr], ⟨by simp [hc], fun hf => ?_⟩, by simpa using hrd⟩
  rcases s.takeNode_match w with ⟨hf', hv'⟩ | ⟨-, hv'⟩
  · rw [hv', State.takeNode_nodeIdx]; exact hm (hf' ▸ hf)
  · rw [hv', State.takeNode_nodeIdx]
    split
    · exact hm ‹_›
    · exact ⟨hpos, Nat.le_refl _⟩

/-- What step 8 publishes is in range: a node was found, so there is one, and `n` is at least 1. -/
theorem publish (hs : s.stage = .s8Final) (hf : s.found = true) (hx : s.routedWidth ≤ 64) : s.publish.Coherent := by
  have ha := h.atStage
  simp only [State.AtStage, hs] at ha
  obtain ⟨-, hk, hr, hc, hm⟩ := ha
  obtain ⟨h1, h2⟩ := hm hf
  have hn : 1 ≤ s.addrWidth := addressFieldWidth_pos _ (by omega)
  exact State.Settled.coherent
    ⟨h.memory, h.nibbles, fun _ => h.tap (by simp [hs]), hw,
      fun _ => ⟨h1, Nat.le_trans h2 hc, Nat.le_add_right_of_le hn, hx⟩⟩
    ⟨rfl, hk, hr⟩

theorem handoff (hs : s.stage = .s9Handoff) : s.handoff.Coherent := by
  have ha := h.atStage
  simp only [State.AtStage, hs] at ha
  obtain ⟨hv, hk, hr⟩ := ha
  exact State.Settled.coherent ⟨h.memory, h.nibbles, fun _ => h.tap (by simp [hs]), hw, h.published⟩
    ⟨hv, by simp [hk, hr]⟩

theorem checked (hs : s.stage = .r0Check) (hv : s.valid = true) : (s.goto .raSelVir).Coherent := by
  have ha := h.atStage
  simp only [State.AtStage, hs] at ha
  obtain ⟨hk, hr⟩ := ha
  exact h.goto hw _ (by simp [hs]) ⟨hv, by simp [hk, hr]⟩

end
end State.Coherent

/-- Every transaction keeps the invariant. -/
theorem Moves.coherent {s t : State} (hm : Moves s t) (h : s.Coherent) : t.Coherent := by
  have hcs (cs : List Command) : (s.withCommands cs).Coherent := { h with }
  cases hm with
  | reset => exact .engineReset
  | wait => exact h
  | discover c cs _ _ _ _ h4 => exact (hcs cs).acceptDiscover _ h4
  | route c cs _ _ _ _ h4 => exact (hcs cs).acceptRoute _ _ h4
  | reserved c cs => exact { hcs cs with }
  | completed _ _ hw => exact h.executed.afterRequest rfl (h.waiting hw).2
  | failed tok => exact h.executeFailed.raise _
  | resetTap _ hs => exact h.issued s.mem h.memory _ (by rw [hs]; rfl) (by simp [hs, Stage.reads])
  | select op _ _ _ hs =>
    refine h.issued _ (packIr_wf s _ op h.memory) _ ?_ ?_ <;> rcases hs with ⟨-, hs | hs⟩ | ⟨-, hs | hs⟩ <;>
      simp [hs, Stage.requests, Stage.reads]
  | zeroFill _ hs => exact h.issued _ (packZeros_wf s h.memory) _ (by rw [hs]; rfl) (by simp [hs, Stage.reads])
  | nibble _ hs _ hn => exact h.issued s.mem h.memory _ (by rcases hs with hs | hs <;> rw [hs] <;> rfl) (fun _ => hn)
  | hubWord _ hs hw hn => exact h.hubWord hw hs hn _ _ _
  | derive _ hs hw => exact h.startEnum hw hs
  | enumerate _ hs hw => exact h.nextNode hw hs
  | nodeWord _ hs hw _ hi => exact (h.takeNode hw hs hi _).nextNode (by simp [hw]) (by simp [hs])
  | notFound => exact h.raise _
  | outOfRange => exact h.raise _
  | publish _ hs hw hf hx => exact h.publish hw hs hf hx
  | handoff _ hs hw => exact h.handoff hw hs
  | notDiscovered => exact h.raise _
  | checked _ hs hw hv => exact h.checked hw hs hv
  | routed _ hs => exact h.issued _ (packRouted_wf s h.memory) _ (by rw [hs]; rfl) (by simp [hs, Stage.reads])

/-- Settles O40, by cases on the move: each target stage's entry of the invariant follows from that of the stage it leaves. -/
theorem stepKeepsCoherent : Obligations.StepKeepsCoherent :=
  fun s t h hstep => (step_moves s t hstep).coherent h

end Sys2Proof.Machine

namespace Sys2Proof.Machine
/-!
PROOF. The lifecycle of `VALID`, the order of the stages and the latches: each follows by cases on the move.
-/

theorem State.withdraws_iff (s : State) :
    s.withdraws = true ↔ s.cmdKind = .discover ∧ (s.stage = .raSelVir ∨ s.stage = .rbVirShift ∨ s.stage = .rcSelVdr) := by
  unfold State.withdraws; cases s.stage <;> simp [Stage.isRouted]

/-- Settles O43, by cases on the move: only the reset, the acceptance of a `discover`, a failure and step 8 write `VALID`. -/
theorem validFollowsItsLifecycle : Obligations.ValidFollowsItsLifecycle := by
  intro s t h
  cases step_moves s t h with
  | reset hr => simp [State.engineReset, State.reset, hr]
  | wait hr hs hc => simp [hr, hs, hc]
  | discover c cs hr hs hc hop => simp [hr, hs, hc, hop]
  | route c cs hr hs hc hop => simp [hr, hs, hc, hop, State.withCommands]
  | reserved c cs hr hs hc hop => simp [hr, hs, hc, hop, State.withCommands]
  | completed hr hs hw ha => simp [hr, hs, hw, ha]
  | failed tok hr hs hw ha =>
    simp [hr, hs, hw, ha, ← Bool.not_eq_true, State.withdraws_iff]
  | resetTap hr hs hw => simp [hr, hs, hw]
  | select op hr hw h4 hs => rcases hs with ⟨-, hs | hs⟩ | ⟨-, hs | hs⟩ <;> simp [hr, hs, hw]
  | zeroFill hr hs hw => simp [hr, hs, hw]
  | nibble hr hs hw => rcases hs with hs | hs <;> simp [hr, hs, hw]
  | hubWord hr hs hw => simp [hr, hs, hw]
  | derive hr hs hw => simp [hr, hs, hw]
  | enumerate hr hs hw => simp [hr, hs, hw]
  | nodeWord hr hs hw => simp [hr, hs, hw]
  | notFound hr hs hw hf => simp [hr, hs, hw, hf, State.withdraws, Stage.isRouted]
  | outOfRange hr hs hw hf hx => simp [hr, hs, hw, hx, State.withdraws, Stage.isRouted]
  | publish hr hs hw hf hx => simp [hr, hs, hw, hf, hx]
  | handoff hr hs hw => simp [hr, hs, hw]
  | notDiscovered hr hs hw hv => simp [hr, hs, hv]
  | checked hr hs hw hv => simp [hr, hs, hw, hv]
  | routed hr hs hw hv => simp [hr, hs, hw, hv]

/-- The fifteen moves of the fixed order (spec 10_state.md R34). -/
def Stage.order : List (Stage × Stage) :=
  [(.idle, .s1Reset), (.s1Reset, .s2SelVir), (.s2SelVir, .s3HubAddr0), (.s3HubAddr0, .s4SelVdr), (.s4SelVdr, .s5HubRead),
   (.s5HubRead, .s6Derive), (.s6Derive, .s7Enum), (.s7Enum, .s8Final), (.s8Final, .s9Handoff), (.s9Handoff, .raSelVir),
   (.idle, .r0Check), (.r0Check, .raSelVir), (.raSelVir, .rbVirShift), (.rbVirShift, .rcSelVdr), (.rcSelVdr, .idle)]

/-- A stage whose request has completed stays or goes on in the order. -/
theorem State.afterRequest_stage (s : State) :
    s.afterRequest.stage = s.stage ∨ (s.stage, s.afterRequest.stage) ∈ Stage.order := by
  unfold State.afterRequest; cases hs : s.stage <;> simp [hs, Stage.order]

/-- Settles O45, by cases on the move. -/
theorem stagesFollowTheFixedOrder : Obligations.StagesFollowTheFixedOrder := by
  intro s t h hnr
  cases step_moves s t h with
  | reset hr => simp [hr] at hnr
  | completed =>
    rcases s.executed.afterRequest_stage with hk | hm
    · exact .inl hk
    · exact .inr (.inl hm)
  | discover c cs _ hs => simp [hs]
  | route c cs _ hs => simp [hs]
  | hubWord _ hs => simp [hs]
  | derive _ hs => simp [hs]
  | enumerate _ hs => rcases s.nextNode_stage with hk | hk <;> simp [hk, hs]
  | nodeWord _ hs => rcases (s.takeNode s.acc).nextNode_stage with hk | hk <;> simp [hk, hs]
  | publish _ hs => simp [hs]
  | handoff _ hs => simp [hs]
  | checked _ hs => simp [hs]
  | failed => simp [Condition.result]
  | notFound => simp [Condition.result]
  | outOfRange => simp [Condition.result]
  | notDiscovered => simp [Condition.result]
  | wait | reserved | resetTap | select | zeroFill | nibble | routed => exact .inl rfl

/-- Settles O59, by cases on the move: acceptance writes all three latches, step 9 `CMD_VIR`. -/
theorem latchesAreConstantUntilTheResponse : Obligations.LatchesAreConstantUntilTheResponse := by
  intro s t h hnr
  cases step_moves s t h with
  | reset hr => simp [hr] at hnr
  | wait _ hs => simp [hs]
  | discover c cs _ hs hc hop => simp [hs, hc, hop, State.withCommands]
  | route c cs _ hs hc hop => simp [hs, hc, hop]
  | reserved c cs _ hs => simp [hs, State.withCommands]
  | completed _ hs hw => simp [hs, hw]
  | failed tok _ hs hw => simp [hs, hw]
  | resetTap _ hs => simp [hs]
  | select op _ _ _ hs => rcases hs with ⟨-, hs | hs⟩ | ⟨-, hs | hs⟩ <;> simp [hs]
  | zeroFill _ hs => simp [hs]
  | nibble _ hs => rcases hs with hs | hs <;> simp [hs]
  | hubWord _ hs => simp [hs]
  | derive _ hs => simp [hs]
  | enumerate _ hs => simp [hs]
  | nodeWord _ hs => simp [hs]
  | notFound _ hs => simp [hs]
  | outOfRange _ hs => simp [hs]
  | publish _ hs => simp [hs]
  | handoff _ hs hw => simp [hs, hw]
  | notDiscovered _ hs => simp [hs]
  | checked _ hs => simp [hs]
  | routed _ hs => simp [hs]

end Sys2Proof.Machine

namespace Sys2Proof.Machine
/-!
PROOF. What one instruction can do, said once: `Effect i s t` lists the next states that `exec i s` answers, and `exec_effect`
says that there are no others.
-/

/-- The next state of each instruction. -/
inductive Effect (s : State) : Instr → State → Prop
  | notAccepted (i : Instr) : Effect s i s.notAccepted
  | discover (tap : Tap) : Effect s (.discover tap) (s.acceptDiscover tap)
  | route (v : BitVec 32) (tap : Tap) : Effect s (.route v tap) (s.acceptRoute v tap)
  | farEnd (i : Instr) (f : FarEnd) : Effect s i { s with far := f }
  | emitted (i : Instr) (r : Request) : Effect s i (s.emit r)
  | executed : Effect s .execute (if s.awaiting then s else s.await).answered.state
  | packed (b : BufId) (off w : Nat) (v : BitVec 64) : Effect s (.pack b off w v) { s with mem := s.mem.pack b off w v.toNat }
  | returned (i : Instr) (r : Ret) : Effect s i (s.returns r)
  | selectVir (tap : Tap) : Effect s (.selVir tap) (s.serveSelect tap Config.user1).state
  | selectVdr (tap : Tap) : Effect s (.selVdr tap) (s.serveSelect tap Config.user0).state
  | nibscan : Effect s .nibscan (s.serveNibble.andThen fun t => t.returns (.nat t.capturedNibble))
  | read32 : Effect s .read32
      ((readNibbles Config.nibblesPerWord s.startRead).andThen fun t => t.returns (.word t.acc))
  | hubAddr0 : Effect s .hubAddr0 (s.packZeros.serve (s.packZeros.drRequest Config.zeroFillBits (some .drbuf) none)).state
  | hubCfg (v : BitVec 5) (c : BitVec 8) (f : BitVec 11) (m : BitVec 8) :
      Effect s (.hubCfg v c f m) (s.takeHubWord (joinFields v c f m) c m)
  | nodeInfo (v : BitVec 5) (n : BitVec 8) (f : BitVec 11) (i : BitVec 8) :
      Effect s (.nodeInfo v n f i) (s.takeNodeWord (joinFields v n f i))
  | nodeInfoVjtag (v : BitVec 5) (f : BitVec 11) (i : BitVec 8) :
      Effect s (.nodeInfoVjtag v f i) (s.takeNodeWord (joinFields v Config.vjtagNodeId f i)).recordMatch
  | nibble (x : BitVec 4) : Effect s (.nibble x) (s.takeNibble x.toNat)
  | succeeded : Effect s .rspSuccess s.succeed
  | raised (i : Instr) (c : Condition) : Effect s i (s.raise c)

/-- A checked operation that answered a next state has passed its check. -/
theorem of_ite_refused {p : Prop} [Decidable p] {r : Refusal} {o : Host.Outcome State Fault Refusal} {t : State}
    (h : (if p then .refused r else o) = .next t) : ¬ p ∧ o = .next t := by
  split at h
  · cases h
  · exact ⟨‹_›, h⟩

theorem exec_effect (i : Instr) (s t : State) (h : exec i s = .next t) : Effect s i t := by
  cases i with
  | discover tap =>
    change execDiscover tap s = _ at h
    unfold execDiscover at h
    split at h
    · cases h; exact .notAccepted _
    · obtain ⟨-, h⟩ := of_ite_refused h; cases h; exact .discover tap
  | route v tap =>
    change execRoute v tap s = _ at h
    unfold execRoute at h
    split at h
    · cases h; exact .notAccepted _
    · obtain ⟨-, h⟩ := of_ite_refused h; cases h; exact .route v tap
  | cmdReserved00 | cmdReserved11 => cases h; exact .notAccepted _
  | user0 | user1 | routedVir | zeroFill => cases h; exact .farEnd _ _
  | resetTap => cases h; exact .emitted _ _
  | shiftIr tap w b =>
    obtain ⟨-, h⟩ := of_ite_refused h
    split at h
    · cases h; exact .emitted _ _
    · cases h
  | shiftDr w out cap =>
    change execShiftDr w out cap s = _ at h
    unfold execShiftDr at h
    split at h
    · cases h; exact .emitted _ _
    · cases h
  | execute => cases h; exact .executed
  | pack b off w v =>
    obtain ⟨-, h⟩ := of_ite_refused h
    obtain ⟨-, h⟩ := of_ite_refused h
    cases h; exact .packed b off w v
  | unpack b off w =>
    obtain ⟨-, h⟩ := of_ite_refused h
    obtain ⟨-, h⟩ := of_ite_refused h
    cases h; exact .returned _ _
  | afw | nibacc | asm32 | decHub | decNode | mkvir => cases h; exact .returned _ _
  | selVir tap => obtain ⟨-, h⟩ := of_ite_refused h; cases h; exact .selectVir tap
  | selVdr tap => obtain ⟨-, h⟩ := of_ite_refused h; cases h; exact .selectVdr tap
  | nibscan => cases h; exact .nibscan
  | read32 => cases h; exact .read32
  | hubAddr0 => cases h; exact .hubAddr0
  | hubCfg => cases h; exact .hubCfg _ _ _ _
  | nodeInfo => cases h; exact .nodeInfo _ _ _ _
  | nodeInfoVjtag => cases h; exact .nodeInfoVjtag _ _ _
  | nibble x => cases h; exact .nibble x
  | rspSuccess => cases h; exact .succeeded
  | rspNoVjtagFound | rspTransportError | rspNotDiscovered => cases h; exact .raised _ _

/-- A preorder of states that holds across one nibble scan and one nibble taken holds across a whole register read, ended or
not. -/
theorem readNibbles_keeps {R : State → State → Prop} (hrefl : ∀ s, R s s) (htrans : ∀ s t u, R s t → R t u → R s u)
    (hserve : ∀ s, R s s.serveNibble.state) (htake : ∀ s x, R s (s.takeNibble x)) (k : Nat) (s : State) :
    R s (readNibbles k s).state := by
  induction k generalizing s with
  | zero => exact hrefl s
  | succ k ih =>
    have hs := hserve s
    unfold readNibbles
    cases hf : s.serveNibble with
    | go t => rw [hf] at hs; exact htrans _ _ _ (htrans _ _ _ hs (htake t _)) (ih _)
    | ended t => rw [hf] at hs; exact hs

/-! ### The Discovery Result under an instruction -/

/-- No field of the Discovery Result is written, and neither `FOUND` nor `VALID` is set. -/
structure KeepsResult (s t : State) : Prop where
  nodeCount : t.nodeCount = s.nodeCount
  mWidth : t.mWidth = s.mWidth
  vjtagAddr : t.vjtagAddr = s.vjtagAddr
  found : t.found = true → s.found = true
  valid : t.valid = true → s.valid = true

theorem KeepsResult.refl (s : State) : KeepsResult s s := ⟨rfl, rfl, rfl, id, id⟩

theorem KeepsResult.trans {s t u : State} (h : KeepsResult s t) (h' : KeepsResult t u) : KeepsResult s u :=
  ⟨h'.nodeCount.trans h.nodeCount, h'.mWidth.trans h.mWidth, h'.vjtagAddr.trans h.vjtagAddr, h.found ∘ h'.found,
    h.valid ∘ h'.valid⟩

theorem KeepsResult.raise (s : State) (c : Condition) : KeepsResult s (s.raise c) :=
  ⟨rfl, rfl, rfl, id, fun h => by simp_all⟩

theorem KeepsResult.answered (s : State) : KeepsResult s s.answered.state := by
  rcases answered_cases s with ⟨-, h⟩ | ⟨tok, -, h⟩ <;> rw [h]
  · exact ⟨rfl, rfl, rfl, id, id⟩
  · exact KeepsResult.trans (t := s.executeFailed) ⟨rfl, rfl, rfl, id, id⟩ (.raise _ _)

theorem KeepsResult.serve (s : State) (r : Request) : KeepsResult s (s.serve r).state :=
  KeepsResult.trans (t := (s.emit r).await) ⟨rfl, rfl, rfl, id, id⟩ (.answered _)

theorem KeepsResult.readNibbles (k : Nat) (s : State) : KeepsResult s (readNibbles k s).state :=
  readNibbles_keeps KeepsResult.refl (fun _ _ _ => KeepsResult.trans) (fun s => .serve s _)
    (fun _ _ => ⟨rfl, rfl, rfl, id, id⟩) k s

theorem KeepsResult.andThen_returns {s : State} {f : Flow} (r : State → Ret) (h : KeepsResult s f.state) :
    KeepsResult s (f.andThen fun t => t.returns (r t)) := by
  cases f with
  | go t => exact { h with }
  | ended t => exact h

/-- Every instruction but the two register words of the result keeps it. -/
theorem Effect.keepsResult {s t : State} {i : Instr} (h : Effect s i t) :
    KeepsResult s t ∨ (∃ v c f m, i = .hubCfg v c f m ∧ t = s.takeHubWord (joinFields v c f m) c m) ∨
      ∃ v f m, i = .nodeInfoVjtag v f m ∧ t = (s.takeNodeWord (joinFields v Config.vjtagNodeId f m)).recordMatch := by
  cases h with
  | hubCfg v c f m => exact .inr (.inl ⟨v, c, f, m, rfl, rfl⟩)
  | nodeInfoVjtag v f m => exact .inr (.inr ⟨v, f, m, rfl, rfl⟩)
  | executed =>
    refine .inl (KeepsResult.trans (t := if s.awaiting then s else s.await) ?_ (.answered _))
    split <;> exact ⟨rfl, rfl, rfl, id, id⟩
  | selectVir tap => exact .inl (KeepsResult.trans (t := s.packIr tap _) ⟨rfl, rfl, rfl, id, id⟩ (.serve _ _))
  | selectVdr tap => exact .inl (KeepsResult.trans (t := s.packIr tap _) ⟨rfl, rfl, rfl, id, id⟩ (.serve _ _))
  | hubAddr0 => exact .inl (KeepsResult.trans (t := s.packZeros) ⟨rfl, rfl, rfl, id, id⟩ (.serve _ _))
  | nibscan => exact .inl (.andThen_returns _ (.serve s _))
  | read32 => exact .inl (.andThen_returns _ (.trans (t := s.startRead) ⟨rfl, rfl, rfl, id, id⟩ (.readNibbles _ _)))
  | raised _ c => exact .inl (.raise s c)
  | discover => exact .inl ⟨rfl, rfl, rfl, nofun, nofun⟩
  | notAccepted | route | farEnd | emitted | packed | returned | nodeInfo | nibble | succeeded =>
    exact .inl ⟨rfl, rfl, rfl, id, id⟩

/-- Settles O44, from what each instruction can do. -/
theorem onlyRegisterWordsWriteTheResultFields : Obligations.OnlyRegisterWordsWriteTheResultFields := by
  intro i s t h
  rcases (exec_effect i s t h).keepsResult with hk | ⟨v, c, f, m, rfl, rfl⟩ | ⟨v, f, m, rfl, rfl⟩
  · refine ⟨fun hn => ?_, fun hn => ?_, hk.valid⟩
    · rcases hn with hn | hn
      · exact absurd hk.nodeCount hn
      · exact absurd hk.mWidth hn
    · rcases hn with hn | ⟨ht, hs⟩
      · exact absurd hk.vjtagAddr hn
      · simp [hk.found ht] at hs
  · exact ⟨fun _ => ⟨v, c, f, m, rfl⟩, by simp, id⟩
  · exact ⟨by simp, fun _ => ⟨v, f, m, rfl⟩, id⟩

/-! ### The sizes of the buffers under an instruction -/

/-- `DRBUF` and `CAPBUF` keep their form, and `IRBUF` its size. -/
structure KeepsSizes (s t : State) : Prop where
  wf : s.mem.wf = true → t.mem.wf = true
  irbuf : t.mem.irbuf.length = s.mem.irbuf.length

theorem KeepsSizes.of_mem_eq {s t : State} (h : t.mem = s.mem) : KeepsSizes s t := by constructor <;> rw [h]; exact id

theorem KeepsSizes.trans {s t u : State} (h : KeepsSizes s t) (h' : KeepsSizes t u) : KeepsSizes s u :=
  ⟨h'.wf ∘ h.wf, h'.irbuf.trans h.irbuf⟩

/-- When every buffer keeps its size, so does memory its form. -/
theorem KeepsSizes.of_lengths {s t : State} (h : ∀ b, (t.mem.get b).length = (s.mem.get b).length) : KeepsSizes s t := by
  refine ⟨fun hw => ?_, h .irbuf⟩
  rw [Memory.wf_iff] at hw ⊢
  exact ⟨(h .drbuf).trans hw.1, (h .capbuf).trans hw.2⟩

theorem KeepsSizes.answered (s : State) : KeepsSizes s s.answered.state := .of_lengths (answered_length s)

theorem KeepsSizes.serve (s : State) (r : Request) : KeepsSizes s (s.serve r).state :=
  .of_lengths (answered_length (s.emit r).await)

theorem KeepsSizes.readNibbles (k : Nat) (s : State) : KeepsSizes s (readNibbles k s).state :=
  readNibbles_keeps (R := KeepsSizes) (fun _ => .of_mem_eq rfl) (fun _ _ _ => KeepsSizes.trans) (fun s => .serve s _)
    (fun _ _ => .of_mem_eq rfl) k s

theorem KeepsSizes.andThen_returns {s : State} {f : Flow} (r : State → Ret) (h : KeepsSizes s f.state) :
    KeepsSizes s (f.andThen fun t => t.returns (r t)) := by
  cases f with
  | go t => exact { h with }
  | ended t => exact h

theorem KeepsSizes.pack (s : State) (b : BufId) (off w v : Nat) : KeepsSizes s { s with mem := s.mem.pack b off w v } := by
  refine .of_lengths fun b' => ?_
  by_cases hb : b' = b
  · subst hb; simp [Memory.pack]
  · simp [Memory.pack, Memory.get_set_other _ _ _ _ hb]

/-- A select gives `IRBUF` the size of the handle it names. -/
theorem serveSelect_sizes (s : State) (tap : Tap) (op : Nat) :
    (s.mem.wf = true → (s.serveSelect tap op).state.mem.wf = true) ∧
      (s.serveSelect tap op).state.mem.irbuf.length = (tap.irlen + 7) / 8 := by
  have h := KeepsSizes.serve (s.packIr tap op) ((s.packIr tap op).irRequest tap tap.irlen .irbuf)
  exact ⟨fun hw => h.wf (packIr_wf s tap op hw), h.irbuf.trans (length_irBuffer _ _ _)⟩

/-- Every instruction keeps the sizes, but that an accepted command and a select name the handle `IRBUF` has the size of. -/
theorem Effect.sizes {s t : State} {i : Instr} (h : Effect s i t) :
    (s.mem.wf = true → t.mem.wf = true) ∧
      (t.mem.irbuf.length = s.mem.irbuf.length ∨
        ∃ tap : Tap, t.mem.irbuf.length = (tap.irlen + 7) / 8 ∧
          (i = .discover tap ∨ (∃ v, i = .route v tap) ∨ i = .selVir tap ∨ i = .selVdr tap)) := by
  have keeps {u : State} (hk : KeepsSizes s u) {p : Prop} :
      (s.mem.wf = true → u.mem.wf = true) ∧ (u.mem.irbuf.length = s.mem.irbuf.length ∨ p) := ⟨hk.wf, .inl hk.irbuf⟩
  cases h with
  | discover tap => exact ⟨id, .inr ⟨tap, Memory.forHandle_irbuf_length _ _, .inl rfl⟩⟩
  | route v tap => exact ⟨id, .inr ⟨tap, Memory.forHandle_irbuf_length _ _, .inr (.inl ⟨v, rfl⟩)⟩⟩
  | selectVir tap =>
    obtain ⟨hw, hl⟩ := serveSelect_sizes s tap Config.user1
    exact ⟨hw, .inr ⟨tap, hl, .inr (.inr (.inl rfl))⟩⟩
  | selectVdr tap =>
    obtain ⟨hw, hl⟩ := serveSelect_sizes s tap Config.user0
    exact ⟨hw, .inr ⟨tap, hl, .inr (.inr (.inr rfl))⟩⟩
  | executed =>
    refine keeps (KeepsSizes.trans (t := if s.awaiting then s else s.await) (.of_mem_eq ?_) (.answered _))
    split <;> rfl
  | packed b off w v => exact keeps (.pack s b off w _)
  | nibscan => exact keeps (.andThen_returns _ (.serve s _))
  | read32 => exact keeps (.andThen_returns _ (.trans (t := s.startRead) (.of_mem_eq rfl) (.readNibbles _ _)))
  | hubAddr0 => exact keeps (KeepsSizes.trans (t := s.packZeros) ⟨packZeros_wf s, rfl⟩ (.serve _ _))
  | notAccepted | farEnd | emitted | returned | hubCfg | nodeInfo | nodeInfoVjtag | nibble | succeeded | raised =>
    exact keeps (.of_mem_eq rfl)

/-- A step from a state in which `IRBUF` has the size of the latched handle leads to such a state. -/
theorem Moves.irbuf_length {s t : State} (h : Moves s t) (hl : s.mem.irbuf.length = (s.cmdTap.irlen + 7) / 8) :
    t.mem.irbuf.length = (t.cmdTap.irlen + 7) / 8 := by
  cases h with
  | reset => exact (by decide : 0 = (0 + 7) / 8)
  | discover c cs => exact Memory.forHandle_irbuf_length _ _
  | route c cs => exact Memory.forHandle_irbuf_length _ _
  | completed =>
    simp only [State.afterRequest_mem, State.afterRequest_cmdTap]
    exact (fillCaptures_mem s.queue (s.env.dropAnswer, s.mem) .irbuf).1.trans hl
  | failed => exact (loseCaptures_mem s.queue (s.env.dropAnswer, s.mem) .irbuf).1.trans hl
  | select op => exact length_irBuffer _ _ _
  | enumerate => simpa using hl
  | nodeWord => simpa using hl
  | wait | reserved | resetTap | zeroFill | nibble | hubWord | derive | notFound | outOfRange | publish | handoff | notDiscovered
    | checked | routed => exact hl

/-- Settles O51, from what each instruction and each move can do to memory. -/
theorem everyOperationKeepsTheBufferSizes : Obligations.EveryOperationKeepsTheBufferSizes :=
  ⟨fun i s t h => (exec_effect i s t h).sizes, fun s t h => (step_moves s t h).irbuf_length⟩

end Sys2Proof.Machine

namespace Sys2Proof.Machine
/-!
PROOF. The far end is written and never read: every operation of the step commutes with replacing it.
-/

/-- The state with another far end. -/
def State.withFar (s : State) (f : FarEnd) : State := { s with far := f }

/-- An operation that neither reads nor writes the far end. -/
def FarBlind (op : State → Host.Outcome State Fault Refusal) : Prop :=
  ∀ s f, op (s.withFar f) = onNext (op s) (·.withFar f)

theorem farBlind_shiftIr (tap : Tap) (w : Nat) (b : BufId) : FarBlind (exec (.shiftIr tap w b)) := by
  intro s f
  change execShiftIr tap w b (s.withFar f) = onNext (execShiftIr tap w b s) _
  have hf : (s.withFar f).fits w (some b) = s.fits w (some b) := rfl
  unfold execShiftIr
  rw [hf]
  split
  · rfl
  · split <;> rfl

theorem farBlind_shiftDr (w : Nat) (out cap : Option BufId) : FarBlind (exec (.shiftDr w out cap)) := by
  intro s f
  change execShiftDr w out cap (s.withFar f) = onNext (execShiftDr w out cap s) _
  have hf (b : Option BufId) : (s.withFar f).fits w b = s.fits w b := by cases b <;> rfl
  unfold execShiftDr
  rw [hf, hf]
  split <;> rfl

/-- Calling `execute_queue` after an operation that is blind to the far end. -/
theorem onNext_await_withFar (o : Host.Outcome State Fault Refusal) (f : FarEnd) :
    onNext (onNext o (·.withFar f)) State.await = onNext (onNext o State.await) (·.withFar f) := by
  cases o <;> rfl

theorem farBlind_issueNibble : FarBlind issueNibble := by
  intro s f
  unfold issueNibble
  rw [farBlind_shiftDr, onNext_await_withFar]

theorem farBlind_issueSelect (op : Nat) : FarBlind (issueSelect · op) := by
  intro s f
  change onNext (exec _ ((s.packIr s.cmdTap op).withFar f)) _ = _
  rw [farBlind_shiftIr, onNext_await_withFar]
  rfl

theorem farBlind_issueDr (w : Nat) : FarBlind (issueDr · w) := by
  intro s f
  show onNext (exec _ (s.withFar f)) _ = onNext (onNext (exec _ s) _) _
  rw [farBlind_shiftDr, onNext_await_withFar]

theorem State.nextNode_withFar (s : State) (f : FarEnd) : (s.withFar f).nextNode = s.nextNode.withFar f := by
  by_cases h : s.nodeIdx.toNat < s.nodeCount.toNat
  · rw [s.nextNode_begin h, (s.withFar f).nextNode_begin h]; rfl
  · rw [s.nextNode_end (Nat.le_of_not_lt h), (s.withFar f).nextNode_end (Nat.le_of_not_lt h)]; rfl

theorem State.takeNode_withFar (s : State) (f : FarEnd) (w : BitVec 32) :
    (s.withFar f).takeNode w = (s.takeNode w).withFar f := by
  unfold State.takeNode
  split <;> rfl

theorem farBlind_issue : FarBlind issue := by
  intro s f
  have hst : (s.withFar f).stage = s.stage := rfl
  unfold issue
  rw [hst]
  cases s.stage with
  | idle | s1Reset | s6Derive | s9Handoff => rfl
  | s2SelVir | s4SelVdr | raSelVir | rcSelVdr => exact farBlind_issueSelect _ s f
  | s3HubAddr0 => exact farBlind_issueDr _ s.packZeros f
  | s5HubRead =>
    change (if s.nibCnt.toNat < Config.nibblesPerWord then _ else onNext (exec (decodeHub s.acc) _) _) = _
    dsimp only
    split
    · exact farBlind_issueNibble s f
    · rw [exec_decodeHub, exec_decodeHub]; rfl
  | s7Enum =>
    change (if s.nibCnt.toNat < Config.nibblesPerWord then _
      else if s.nodeIdx = 0 then _ else onNext (exec (decodeNode s.acc) _) _) = _
    dsimp only
    split
    · exact farBlind_issueNibble s f
    · split
      · exact congrArg _ (s.nextNode_withFar f)
      · rw [exec_decodeNode, exec_decodeNode, State.takeNode_withFar]
        exact congrArg _ (State.nextNode_withFar _ f)
  | s8Final =>
    change (if !s.found then _ else if Config.maxFieldBits < s.routedWidth then _ else _) = _
    dsimp only
    split
    · rfl
    · split <;> rfl
  | r0Check =>
    change (if !s.valid then _ else _) = _
    dsimp only
    split <;> rfl
  | rbVirShift =>
    change (if !s.valid then _ else _) = _
    dsimp only
    split
    · rfl
    · exact farBlind_issueDr _ s.packRouted f

theorem farBlind_decodeCommand (w : BitVec 34) (tap : Tap) : FarBlind (exec (decodeCommand w tap)) := by
  intro s f
  unfold decodeCommand
  split
  · change execDiscover tap (s.withFar f) = onNext (execDiscover tap s) _
    have hb : (s.withFar f).busy = s.busy := rfl
    unfold execDiscover
    rw [hb]
    split
    · rfl
    · split <;> rfl
  · split
    · change execRoute _ tap (s.withFar f) = onNext (execRoute _ tap s) _
      have hb : (s.withFar f).busy = s.busy := rfl
      unfold execRoute
      rw [hb]
      split
      · rfl
      · split <;> rfl
    · split <;> rfl

theorem farBlind_takeCommand : FarBlind takeCommand := by
  intro s f
  have hc : (s.withFar f).env = s.env := rfl
  unfold takeCommand
  rw [hc]
  cases s.env.commands with
  | nil => rfl
  | cons c cs => exact farBlind_decodeCommand c.word c.tap (s.withCommands cs) f

theorem State.afterRequest_withFar (s : State) (f : FarEnd) : (s.withFar f).afterRequest = s.afterRequest.withFar f := by
  have hst : (s.withFar f).stage = s.stage := rfl
  unfold State.afterRequest
  rw [hst]
  cases s.stage <;> rfl

/-- The answer of an `execute_queue` does not depend on the far end, only what is recorded of it does. -/
theorem complete_withFar (s : State) (f : FarEnd) : ∃ g, complete (s.withFar f) = onNext (complete s) (·.withFar g) := by
  unfold complete
  rcases answered_cases s with ⟨ha, he⟩ | ⟨tok, ha, he⟩
  · refine ⟨s.queue.foldl FarEnd.perform f, ?_⟩
    rw [he, answered_success (s.withFar f) ha]
    exact congrArg _ (State.afterRequest_withFar s.executed _)
  · refine ⟨.unknown, ?_⟩
    rw [he, answered_failure (s.withFar f) tok ha]
    rfl

/-- A step with another far end does the same, but for what is recorded of the far end. -/
theorem step_withFar (s : State) (f : FarEnd) : ∃ g, step (s.withFar f) = onNext (step s) (·.withFar g) := by
  unfold step
  split
  · exact ⟨(s.withFar f).engineReset.far, by rw [if_pos ‹_›]; rfl⟩
  · rw [if_neg ‹_›]
    by_cases hs : s.stage = .idle
    · rw [advance_idle s hs, advance_idle (s.withFar f) hs]
      exact ⟨f, farBlind_takeCommand s f⟩
    · rw [advance_busy s hs, advance_busy (s.withFar f) hs]
      by_cases hw : s.awaiting = true
      · rw [if_pos (c := (s.withFar f).awaiting = true) hw, if_pos hw]; exact complete_withFar s f
      · rw [if_neg (c := (s.withFar f).awaiting = true) hw, if_neg hw]; exact ⟨f, farBlind_issue s f⟩

/-- Settles O52, from the commutation of the step with replacing the far end. -/
theorem engineNeverReadsTheFarEnd : Obligations.EngineNeverReadsTheFarEnd := by
  intro s f
  obtain ⟨g, hg⟩ := step_withFar s f
  change step { s with far := f } = _ at hg
  exact ⟨fun t h => ⟨g, by rw [hg, h]; rfl⟩, fun r h => by rw [hg, h]; rfl, fun r h => by rw [hg, h]; rfl⟩

end Sys2Proof.Machine

namespace Sys2Proof.Machine
/-!
PROOF. The operation of each busy stage. With no request outstanding a step is the stage's `issue`; where the call of
`execute_queue` follows an operation, `onNext_next` gives the state in between.
-/

/-- When an operation that is gone on from answers a next state, the operation itself did. -/
theorem onNext_next {o : Host.Outcome State Fault Refusal} {f : State → State} {u : State} (h : onNext o f = .next u) :
    ∃ t, o = .next t ∧ onNext o f = .next (f t) := by
  cases o with
  | next t => exact ⟨t, rfl, rfl⟩
  | fault r => cases h
  | refused r => cases h

theorem step_busy (s : State) (hr : s.env.resetReq = false) (hs : s.stage ≠ .idle) :
    step s = if s.awaiting then complete s else issue s := by
  unfold step; rw [if_neg (by simp [hr]), advance_busy s hs]

theorem step_free (s : State) (hr : s.env.resetReq = false) (hs : s.stage ≠ .idle) (hw : s.awaiting = false) :
    step s = issue s := by
  rw [step_busy s hr hs, if_neg (by simp [hw])]

/-! ### What a stage issues -/

section
variable {s : State}

theorem issue_s1Reset (hs : s.stage = .s1Reset) : issue s = onNext (exec .resetTap s) State.await := by
  unfold issue; rw [hs]

theorem issue_selectVir (hs : s.stage = .s2SelVir ∨ s.stage = .raSelVir) : issue s = issueSelect s Config.user1 := by
  unfold issue; rcases hs with hs | hs <;> rw [hs]

theorem issue_selectVdr (hs : s.stage = .s4SelVdr ∨ s.stage = .rcSelVdr) : issue s = issueSelect s Config.user0 := by
  unfold issue; rcases hs with hs | hs <;> rw [hs]

theorem issue_s3HubAddr0 (hs : s.stage = .s3HubAddr0) : issue s = issueDr s.packZeros Config.zeroFillBits := by
  unfold issue; rw [hs]

theorem issue_nibble (hs : s.stage = .s5HubRead ∨ s.stage = .s7Enum) (hn : s.nibCnt.toNat < 8) : issue s = issueNibble s := by
  unfold issue; rcases hs with hs | hs <;> rw [hs] <;> exact if_pos hn

theorem issue_hubWord (hs : s.stage = .s5HubRead) (hn : s.nibCnt = 8) :
    issue s = onNext (exec (decodeHub s.acc) s) (State.goto · .s6Derive) := by
  unfold issue; rw [hs]; exact if_neg (by rw [hn]; decide)

theorem issue_s6Derive (hs : s.stage = .s6Derive) : issue s = .next s.startEnum := by unfold issue; rw [hs]

theorem issue_enumerate (hs : s.stage = .s7Enum) (hn : s.nibCnt = 8) (hi : s.nodeIdx = 0) : issue s = .next s.nextNode := by
  unfold issue; rw [hs]; exact (if_neg (by rw [hn]; decide)).trans (if_pos hi)

theorem issue_nodeWord (hs : s.stage = .s7Enum) (hn : s.nibCnt = 8) (hi : s.nodeIdx ≠ 0) :
    issue s = onNext (exec (decodeNode s.acc) s) State.nextNode := by
  unfold issue; rw [hs]; exact (if_neg (by rw [hn]; decide)).trans (if_neg hi)

theorem issue_notFound (hs : s.stage = .s8Final) (hf : s.found = false) : issue s = exec .rspNoVjtagFound s := by
  unfold issue; rw [hs]; exact if_pos (by rw [hf]; rfl)

theorem issue_outOfRange (hs : s.stage = .s8Final) (hf : s.found = true) (hx : 64 < s.routedWidth) :
    issue s = exec (.rspTransportError .decodeRange) s := by
  unfold issue; rw [hs]; exact (if_neg (by simp [hf])).trans (if_pos hx)

theorem issue_publish (hs : s.stage = .s8Final) (hf : s.found = true) (hx : s.routedWidth ≤ 64) :
    issue s = .next s.publish := by
  unfold issue; rw [hs]; exact (if_neg (by simp [hf])).trans (if_neg (Nat.not_lt.2 hx))

theorem issue_s9Handoff (hs : s.stage = .s9Handoff) : issue s = .next s.handoff := by unfold issue; rw [hs]

theorem issue_notDiscovered (hs : s.stage = .r0Check) (hv : s.valid = false) : issue s = exec .rspNotDiscovered s := by
  unfold issue; rw [hs]; exact if_pos (by rw [hv]; rfl)

theorem issue_checked (hs : s.stage = .r0Check) (hv : s.valid = true) : issue s = .next (s.goto .raSelVir) := by
  unfold issue; rw [hs]; exact if_neg (by simp [hv])

theorem issue_rbVirShift (hs : s.stage = .rbVirShift) (hv : s.valid = true) :
    issue s = issueDr s.packRouted s.routedWidth := by
  unfold issue; rw [hs]; exact if_neg (by simp [hv])

end

/-- A select, as the instruction it runs: the opcode packed into `IRBUF`, `SHIFT_IR`, the call. -/
theorem issueSelect_runs (s : State) (op : Nat) (hop : op < 16) (h4 : 4 ≤ s.cmdTap.irlen) :
    ∃ (b : Buffer) (t : State),
      b.length = (s.cmdTap.irlen + 7) / 8 ∧ Buffer.unpack b 0 s.cmdTap.irlen = op ∧
      exec (.shiftIr s.cmdTap s.cmdTap.irlen .irbuf) { s with mem := { s.mem with irbuf := b } } = .next t ∧
      issueSelect s op = .next t.await := by
  obtain ⟨t, he, ht⟩ := onNext_next (issueSelect_eq s op hop h4)
  exact ⟨irBuffer s.mem.irbuf s.cmdTap.irlen op, t, length_irBuffer _ _ _,
    unpack_irBuffer _ _ _ (opcode_lt _ _ h4 hop), he, ht⟩

/-- The node loop goes on from the registers that a node's word leaves alone. -/
theorem nextNode_takeNode (s : State) (w : BitVec 32) :
    (s.takeNode w).nextNode =
      if s.nodeIdx.toNat < s.nodeCount.toNat then { s.takeNode w with nodeIdx := s.nodeIdx + 1, acc := 0, nibCnt := 0 }
      else { s.takeNode w with stage := .s8Final } := by
  by_cases h : s.nodeIdx.toNat < s.nodeCount.toNat
  · rw [State.nextNode_begin _ (by simpa using h), if_pos h, State.takeNode_nodeIdx]
  · rw [State.nextNode_end _ (by simpa using h), if_neg h]; rfl

/-- Settles O37, stage by stage from what a stage issues. -/
theorem stepRunsTheStagesOperation : Obligations.StepRunsTheStagesOperation := by
  intro s hr
  have free {st : Stage} (hs : s.stage = st) (hi : st ≠ .idle) (hw : s.awaiting = false) : step s = issue s :=
    step_free s hr (hs ▸ hi) hw
  refine ⟨fun hs hw => ?reset, fun op hw h4 hs => ?select, fun hs hw => ?zeroFill, fun hs hw hn hm => ?nibble,
    fun hs hw hn i hd => ?hubWord, fun hs hw => ?derive, fun hs hw hn hi => ?enumerate, fun hs hw hn hi i hd => ?nodeWord,
    fun hs hw => ⟨fun hf => ?notFound, fun hf hx => ?outOfRange, fun hf hx => ?publish⟩, fun hs hw => ?handoff,
    fun hs hw => ⟨fun hv => ?notDiscovered, fun hv => ?checked⟩, fun hs hw hv hx hm => ?routed,
    fun hs hw tok ha => ?failure⟩
  case reset =>
    rw [free hs nofun hw, issue_s1Reset hs]
    exact onNext_next (u := (s.emit .resetTap).await) rfl
  case select =>
    rcases hs with ⟨hs, rfl⟩ | ⟨hs, rfl⟩
    · rw [step_free s hr (by rcases hs with hs | hs <;> simp [hs]) hw, issue_selectVir hs]
      exact issueSelect_runs s _ (by decide) h4
    · rw [step_free s hr (by rcases hs with hs | hs <;> simp [hs]) hw, issue_selectVdr hs]
      exact issueSelect_runs s _ (by decide) h4
  case zeroFill =>
    rw [free hs nofun hw, issue_s3HubAddr0 hs]
    exact onNext_next (issueZeros_eq s)
  case nibble =>
    rw [step_free s hr (by rcases hs with hs | hs <;> simp [hs]) hw, issue_nibble hs hn]
    exact onNext_next (issueNibble_eq s hm)
  case hubWord =>
    obtain rfl : decodeHub s.acc = i := by rw [decode_hubRegister] at hd; cases hd; rfl
    rw [free hs nofun hw, issue_hubWord hs hn, exec_decodeHub]
    exact ⟨_, rfl, rfl⟩
  case derive => rw [free hs nofun hw, issue_s6Derive hs]; rfl
  case enumerate =>
    rw [free hs nofun hw, issue_enumerate hs hn hi]
    by_cases h : 0 < s.nodeCount.toNat
    · rw [s.nextNode_begin (by simpa [hi] using h), if_pos h, hi]; rfl
    · rw [s.nextNode_end (by simpa [hi] using h), if_neg h]; rfl
  case nodeWord =>
    obtain rfl : decodeNode s.acc = i := by rw [decode_nodeRegister] at hd; cases hd; rfl
    rw [free hs nofun hw, issue_nodeWord hs hn hi, exec_decodeNode]
    exact ⟨_, rfl, congrArg _ (nextNode_takeNode s s.acc)⟩
  case notFound => rw [free hs nofun hw, issue_notFound hs hf]
  case outOfRange => rw [free hs nofun hw, issue_outOfRange hs hf hx]
  case publish => rw [free hs nofun hw, issue_publish hs hf hx]; rfl
  case handoff => rw [free hs nofun hw, issue_s9Handoff hs]; rfl
  case notDiscovered => rw [free hs nofun hw, issue_notDiscovered hs hv]
  case checked => rw [free hs nofun hw, issue_checked hs hv]; rfl
  case routed =>
    rw [free hs nofun hw, issue_rbVirShift hs hv]
    obtain ⟨t, he, ht⟩ := onNext_next (issueRouted_eq s hm hx)
    have hl : s.packRouted.mem.drbuf.length = 8 := ((Memory.wf_iff _).1 (packRouted_wf s hm)).1
    exact ⟨s.packRouted.mem.drbuf, t, hl, unpack_packRouted s hm hx, he, ht⟩
  case failure =>
    rw [step_busy s hr hs, if_pos hw]
    show complete s = .next (if s.awaiting then s else s.await).answered.state
    unfold complete
    rw [if_pos hw, answered_failure s tok ha]
    rfl

/-! ### The state after reset, and host reads -/

/-- Settles O38: the reset state has every flag that lets a host read down. -/
theorem resetLeavesNothingPublished : Obligations.ResetLeavesNothingPublished := by
  refine ⟨rfl, rfl, rfl, fun r hv he => ?_⟩
  cases r with
  | valid => exact absurd rfl hv
  | errRawValid => exact absurd rfl he
  | nodeCount | mWidth | vjtagAddr | result | errStage | errRaw | errToken => rfl

/-- Settles O39: an idle engine with nothing published is coherent. -/
theorem resetIsCoherent : Obligations.ResetIsCoherent :=
  State.Coherent.of_idle ⟨rfl, Nat.zero_le 8, fun hi => absurd rfl hi, rfl, nofun⟩ rfl

/-- The three fields of the Discovery Result read together. -/
theorem hostRead_fields (s : State) :
    s.hostRead .nodeCount = (if s.resultReadable then some (.bits s.nodeCount.toNat) else none) ∧
      s.hostRead .mWidth = (if s.resultReadable then some (.bits s.mWidth.toNat) else none) ∧
      s.hostRead .vjtagAddr = (if s.resultReadable then some (.bits s.vjtagAddr.toNat) else none) := ⟨rfl, rfl, rfl⟩

/-- Settles O53, register by register from its own readability condition. -/
theorem hostReadsOnlyWhatHoldsAValue : Obligations.HostReadsOnlyWhatHoldsAValue := by
  intro s
  obtain ⟨hn, hm, ha⟩ := hostRead_fields s
  refine ⟨rfl, rfl, fun h => ?unreadable, fun hv h => ?readable, fun h => if_neg (by simp [h]), fun h => if_pos h,
    fun h => if_neg (by simp [h]), fun h => if_pos h, fun h => if_pos h, fun h => if_neg h, fun h => if_neg h,
    fun h tok ht => (if_pos h).trans (by rw [ht]; rfl)⟩
  case unreadable =>
    have hr : ¬ s.resultReadable = true := by
      rw [State.resultReadable_iff]
      rintro ⟨hv, hi⟩
      rcases h with h | ⟨hb, hk⟩
      · simp [h] at hv
      · simp [hb, hk] at hi
    rw [hn, hm, ha, if_neg hr, if_neg hr, if_neg hr]
    exact ⟨rfl, rfl, rfl⟩
  case readable =>
    have hr := (State.resultReadable_iff s).2 ⟨hv, h⟩
    rw [hn, hm, ha, if_pos hr, if_pos hr, if_pos hr]
    exact ⟨rfl, rfl, rfl⟩

end Sys2Proof.Machine

namespace Sys2Proof.Machine
/-!
PROOF. The requests a step issues, the calls that are refused outside the contract of a buffer, and the words that select at the
hub.
-/

/-! ### The requests a step issues -/

theorem emit_await_trace (s : State) (r : Request) :
    (s.emit r).await.out.trace = s.out.trace ++ [.request r, .execute] :=
  List.append_assoc _ _ _

@[simp] theorem State.afterRequest_trace (s : State) : s.afterRequest.out.trace = s.out.trace := by
  unfold State.afterRequest; split <;> rfl

@[simp] theorem State.nextNode_out (s : State) : s.nextNode.out = s.out := by unfold State.nextNode; split <;> rfl
@[simp] theorem State.takeNode_out (s : State) (w : BitVec 32) : (s.takeNode w).out = s.out := by rw [State.takeNode_eq]

/-- The requests that spec 20_memory.md R67 lists, with the TAP reset, as the registers fix them. -/
def State.Lists (s : State) (r : Request) : Prop :=
  r = .resetTap ∨ r = .shiftIr s.cmdTap s.cmdTap.irlen 0x0E ∨ r = .shiftIr s.cmdTap s.cmdTap.irlen 0x0C ∨
    r = .shiftDr 64 (some 0) none ∨ r = .shiftDr 4 none (some .capbuf) ∨
    (1 ≤ s.routedWidth ∧ s.routedWidth ≤ 64 ∧
      r = .shiftDr s.routedWidth
        (some (((s.vjtagAddr.toNat <<< s.mWidth.toNat) ||| s.cmdVir.toNat) % 2 ^ s.routedWidth)) none)

theorem State.lists_select (s : State) {op : Nat} (h : op = Config.user1 ∨ op = Config.user0) :
    s.Lists (selectRequest s.cmdTap op) := by
  rcases h with rfl | rfl
  · exact .inr (.inl rfl)
  · exact .inr (.inr (.inl rfl))

/-- The routed word is on the list when the published result is in range. -/
theorem State.lists_routed (s : State) (h1 : 1 ≤ s.routedWidth) (h64 : s.routedWidth ≤ 64) :
    s.Lists (.shiftDr s.routedWidth (some s.routedWord) none) :=
  .inr (.inr (.inr (.inr (.inr ⟨h1, h64, rfl⟩))))

/-- Every transaction leaves the trace as it was, or packs a buffer, emits one listed request and calls `execute_queue`. -/
theorem Moves.issues {s t : State} (hm : Moves s t) (h : s.Coherent) :
    t.out.trace = s.out.trace ∨
      ∃ (m : Memory) (r : Request), s.awaiting = false ∧ s.Lists r ∧ t = (({ s with mem := m } : State).emit r).await := by
  cases hm with
  | resetTap _ _ hw => exact .inr ⟨s.mem, _, hw, .inl rfl, rfl⟩
  | select op _ hw _ hs => exact .inr ⟨_, _, hw, s.lists_select (hs.imp And.left And.left), rfl⟩
  | zeroFill _ _ hw => exact .inr ⟨_, _, hw, .inr (.inr (.inr (.inl rfl))), rfl⟩
  | nibble _ _ hw => exact .inr ⟨s.mem, _, hw, .inr (.inr (.inr (.inr (.inl rfl)))), rfl⟩
  | routed _ _ hw hv =>
    obtain ⟨-, -, h1, h64⟩ := h.published hv
    rw [unpack_packRouted s h.memory h64]
    exact .inr ⟨_, _, hw, s.lists_routed h1 h64, rfl⟩
  | completed => exact .inl s.executed.afterRequest_trace
  | enumerate => exact .inl (by simp)
  | nodeWord => exact .inl (by simp)
  | reset | wait | discover | route | reserved | failed | hubWord | derive | notFound | outOfRange | publish | handoff
    | notDiscovered | checked => exact .inl rfl

/-- Settles O48, by cases on the move: the five moves that issue are those of the listed requests. -/
theorem onlyTheListedRequestsAreIssued : Obligations.OnlyTheListedRequestsAreIssued := by
  intro s t h hstep
  rcases (step_moves s t hstep).issues h with ht | ⟨m, r, hw, hr, rfl⟩
  · exact .inl ht
  · exact .inr ⟨hw, rfl, r, emit_await_trace _ r, hr⟩

/-! ### Calls outside the contract of a buffer -/

section
variable (s : State) (b : BufId)

/-- A width above 64 is refused before the buffer is looked at. -/
theorem codec_refused_width (off w : Nat) (v : BitVec 64) (h : 64 < w) :
    exec (.pack b off w v) s = .refused .codecWidth ∧ exec (.unpack b off w) s = .refused .codecWidth :=
  ⟨if_pos h, if_pos h⟩

theorem codec_refused_capacity (off w : Nat) (v : BitVec 64) (hw : w ≤ 64) (h : 8 * (s.mem.get b).length < off + w) :
    exec (.pack b off w v) s = .refused .bufferCapacity ∧ exec (.unpack b off w) s = .refused .bufferCapacity :=
  ⟨(if_neg (Nat.not_lt.2 hw)).trans (if_pos h), (if_neg (Nat.not_lt.2 hw)).trans (if_pos h)⟩

theorem State.fits_eq_false {w : Nat} (h : 8 * (s.mem.get b).length < w) : s.fits w (some b) = false :=
  decide_eq_false (Nat.not_le.2 h)

theorem shiftIr_refused_capacity (tap : Tap) (w : Nat) (h4 : 4 ≤ tap.irlen) (h : 8 * (s.mem.get b).length < w) :
    exec (.shiftIr tap w b) s = .refused .bufferCapacity :=
  (if_neg (Nat.not_lt.2 h4)).trans (if_neg (by simp [s.fits_eq_false b h]))

/-- A shift that names the buffer, for its out-bits or for its capture. -/
theorem shiftDr_refused_capacity (w : Nat) (out cap : Option BufId) (hb : out = some b ∨ cap = some b)
    (h : 8 * (s.mem.get b).length < w) : exec (.shiftDr w out cap) s = .refused .bufferCapacity := by
  refine if_neg ?_
  rcases hb with rfl | rfl <;> simp [s.fits_eq_false b h]

end

/-- Settles O4, operation by operation from its checks, the width before the capacity. -/
theorem codecRefusesOutsideTheContract : Obligations.CodecRefusesOutsideTheContract :=
  fun b off w v s =>
    ⟨codec_refused_width s b off w v, codec_refused_capacity s b off w v, fun tap => shiftIr_refused_capacity s b tap w,
      shiftDr_refused_capacity s b w⟩

/-! ### Words that select at the hub -/

/-- A scan while `USER1` is selected: the bits shifted out become the selection, and only the zero fill puts the stream at its
beginning. -/
theorem FarEnd.scanDr_user1 (f : FarEnd) (w : Nat) (out : Option Nat) (h : f.ir = some Config.user1) :
    f.scanDr w out =
      ⟨some Config.user1, out.map (VirSel.mk w), if w = Config.zeroFillBits ∧ out = some 0 then some 0 else none⟩ := by
  unfold FarEnd.scanDr
  rw [if_pos h, h]

/-- Settles O23, from what a scan does while `USER1` is selected. -/
theorem shiftedWordsSelectAtTheHub : Obligations.ShiftedWordsSelectAtTheHub := by
  intro n m addr value s h
  have scan (w v : Nat) := congrArg s.withFar (s.far.scanDr_user1 w (some v) h)
  exact ⟨⟨_, congrArg _ (scan (n + m) (addr * 2 ^ m + value))⟩, congrArg _ (scan 64 0)⟩

end Sys2Proof.Machine

namespace Sys2Proof.Laws.RoundTrip
/-!
PROOF. The encoding: the round trip over all instructions, put together from one lemma per constructor, and the instructions
that have no bit pattern.
-/

open Sys2Proof.Machine

/-- The round trip over the whole syntax, constructor by constructor. -/
theorem decode_encode (i : Instr) : Statement i := by
  cases i with
  | discover tap => exact discover tap
  | route v tap => exact route v tap
  | cmdReserved00 => exact cmdReserved00
  | cmdReserved11 => exact cmdReserved11
  | user0 irlen => exact user0 irlen
  | user1 irlen => exact user1 irlen
  | resetTap => exact resetTap
  | shiftIr tap w b => exact shiftIr tap w b
  | shiftDr w out cap => exact shiftDr w out cap
  | execute => exact execute
  | hubCfg v c f m => exact hubCfg v c f m
  | nodeInfo v n f i => exact nodeInfo v n f i
  | nodeInfoVjtag v f i => exact nodeInfoVjtag v f i
  | routedVir n m addr value => exact routedVir n m addr value
  | zeroFill => exact zeroFill
  | nibble x => exact nibble x
  | rspSuccess => exact rspSuccess
  | rspNoVjtagFound => exact rspNoVjtagFound
  | rspTransportError tok => exact rspTransportError tok
  | rspNotDiscovered => exact rspNotDiscovered
  | pack | unpack | afw | nibacc | asm32 | decHub | decNode | mkvir | selVir | selVdr | nibscan | read32 | hubAddr0 =>
    exact of_no_pattern _ rfl

/-- Settles O35: the round trip of every constructor, and for the pattern-free ones the constructors on which `encode` answers
no word. -/
theorem decodeOfEncodeIsTheInstruction : Obligations.DecodeOfEncodeIsTheInstruction := by
  refine ⟨decode_encode, fun i => ⟨fun h => ?unencoded, ?patternFree⟩⟩
  case unencoded =>
    cases i with
    | pack | unpack | afw | nibacc | asm32 | decHub | decNode | mkvir | selVir | selVdr | nibscan | read32 | hubAddr0 => simp
    | discover | route | cmdReserved00 | cmdReserved11 | user0 | user1 | resetTap | shiftIr | shiftDr | execute | hubCfg
      | nodeInfo | nodeInfoVjtag | routedVir | zeroFill | nibble | rspSuccess | rspNoVjtagFound | rspTransportError
      | rspNotDiscovered => cases h
  case patternFree =>
    rintro (⟨_, _, _, _, rfl⟩ | ⟨_, _, _, rfl⟩ | ⟨_, rfl⟩ | ⟨_, _, rfl⟩ | ⟨_, _, _, _, _, _, _, _, rfl⟩ | ⟨_, rfl⟩ | ⟨_, rfl⟩ |
      ⟨_, _, _, _, rfl⟩ | ⟨_, rfl⟩ | ⟨_, rfl⟩ | rfl | rfl | rfl) <;> rfl

end Sys2Proof.Laws.RoundTrip

namespace Sys2Proof.Machine
/-!
PROOF. The words of the register and command channels, the physical JTAG instructions, and the responses.
-/

/-! ### Register words -/

theorem decodeNode_tagged {w : BitVec 32} (h : w.extractLsb' 19 8 = Config.vjtagNodeId) :
    decodeNode w = .nodeInfoVjtag (w.extractLsb' 27 5) (w.extractLsb' 8 11) (w.extractLsb' 0 8) := if_pos h

theorem decodeNode_untagged {w : BitVec 32} (h : w.extractLsb' 19 8 ≠ Config.vjtagNodeId) :
    decodeNode w =
      .nodeInfo (w.extractLsb' 27 5) (w.extractLsb' 19 8) (w.extractLsb' 8 11) (w.extractLsb' 0 8) := if_neg h

/-- The tag of a node's word, as a number (spec 30_encoding.md R94). -/
theorem extractLsb'_eq_vjtagNodeId_iff (w : BitVec 32) :
    w.extractLsb' 19 8 = Config.vjtagNodeId ↔ w.toNat / 2 ^ 19 % 2 ^ 8 = 0x08 :=
  (nodeIdOf_eq w).trans beq_iff_eq

/-- What the node channel decodes to is well formed: only an untagged word becomes `NODE_INFO`. -/
theorem wellFormed_decodeNode (w : BitVec 32) : WellFormed (decodeNode w) := by
  by_cases h : w.extractLsb' 19 8 = Config.vjtagNodeId
  · rw [decodeNode_tagged h]; rfl
  · rw [decodeNode_untagged h]; exact if_pos (decide_eq_true h)

/-- The highest field of a word is what is left of it. -/
theorem toNat_extractLsb'_version (w : BitVec 32) : (w.extractLsb' 27 5).toNat = w.toNat / 2 ^ 27 := by
  rw [toNat_extractLsb'_eq]
  have := w.isLt
  omega

/-- Settles O28, from the decoder of each channel and the tag of the word. -/
theorem everyRegisterWordDecodes : Obligations.EveryRegisterWordDecodes := by
  intro w
  refine ⟨⟨_, _, _, _, decode_hubRegister w, toNat_extractLsb'_version w, toNat_extractLsb'_eq w _ _,
    toNat_extractLsb'_eq w _ _, by rw [toNat_extractLsb'_eq, pow_zero, Nat.div_one]⟩,
    decodeNode w, decode_nodeRegister w, wellFormed_decodeNode w, fun h => ?tagged, fun h => ?untagged⟩
  case tagged => exact ⟨_, _, _, decodeNode_tagged ((extractLsb'_eq_vjtagNodeId_iff w).2 h)⟩
  case untagged =>
    exact ⟨_, _, _, _, decodeNode_untagged (mt (extractLsb'_eq_vjtagNodeId_iff w).1 h), toNat_extractLsb'_eq w _ _⟩

/-- Settles O34: each word evaluates to its instruction. -/
theorem sampleWordsDecode : Obligations.SampleWordsDecode := ⟨rfl, rfl, rfl, rfl, rfl, rfl, rfl, rfl, rfl⟩

/-! ### Physical JTAG instructions -/

/-- `USER0` after `USER1` keeps the stream position. -/
theorem FarEnd.loadIr_user0_pos {f : FarEnd} (h : f.ir = some Config.user1) : (f.loadIr Config.user0).pos = f.pos :=
  if_pos ⟨rfl, h⟩

/-- Settles O22, from what loading each opcode leaves at the far end. -/
theorem jtagInstructionsLoadThePhysicalIr : Obligations.JtagInstructionsLoadThePhysicalIr := by
  rintro irlen s i op (⟨rfl, rfl⟩ | ⟨rfl, rfl⟩)
  · exact ⟨(s.far.loadIr Config.user1).pos, rfl, nofun⟩
  · exact ⟨(s.far.loadIr Config.user0).pos, rfl, fun h _ => FarEnd.loadIr_user0_pos h⟩

/-! ### Commands -/

theorem State.busy_of_stage {s : State} (h : s.stage ≠ .idle) : s.busy = true := bne_iff_ne.2 h

/-- A command while the engine is busy changes the acknowledgement only. -/
theorem command_notAccepted {s : State} (h : s.stage ≠ .idle) (v : BitVec 32) (tap : Tap) :
    exec (.discover tap) s = .next s.notAccepted ∧ exec (.route v tap) s = .next s.notAccepted :=
  ⟨if_pos (State.busy_of_stage h), if_pos (State.busy_of_stage h)⟩

/-- Settles O33: a reserved code is never accepted, the two commands not while the engine is busy. -/
theorem otherCommandsAreNotAccepted : Obligations.OtherCommandsAreNotAccepted :=
  fun _ v tap => ⟨rfl, rfl, fun h => command_notAccepted h v tap⟩

theorem step_idle (s : State) (hr : s.env.resetReq = false) (hs : s.stage = .idle) : step s = takeCommand s := by
  unfold step; rw [if_neg (by simp [hr]), advance_idle s hs]

theorem takeCommand_cons {s : State} {c : Command} {cs : List Command} (h : s.env.commands = c :: cs) :
    takeCommand s = exec (decodeCommand c.word c.tap) (s.withCommands cs) := by
  unfold takeCommand; rw [h]; rfl

/-- Settles O36: the step takes the oldest command, and its word decodes to one instruction only. -/
theorem stepRunsTheDecodedCommand : Obligations.StepRunsTheDecodedCommand := by
  intro s c cs i hr hs hc hd
  obtain rfl : decodeCommand c.word c.tap = i := Except.ok.inj ((decode_command c.word c.tap).symm.trans hd)
  rw [step_idle s hr hs, takeCommand_cons hc]
  rfl

/-! ### Responses -/

/-- Settles O29: the response is `State.succeed`, which writes no other register. -/
theorem successResponseLeavesErrorRegisters : Obligations.SuccessResponseLeavesErrorRegisters :=
  fun _ => rfl

/-- The command in progress in `s` has ended in `t`, with the one response that `RESULT` holds. -/
def EndsWithResponse (s t : State) : Prop :=
  s.stage ≠ .idle ∧ t.stage = .idle ∧ t.out.responses = s.out.responses ++ [t.result]

/-- No command has ended between `s` and `t`, and no response has been sent. -/
def SendsNothing (s t : State) : Prop :=
  (s.stage = .idle ∨ t.stage ≠ .idle) ∧ t.out.responses = s.out.responses

theorem EndsWithResponse.raise {s : State} (h : s.stage ≠ .idle) (c : Condition) : EndsWithResponse s (s.raise c) :=
  ⟨h, rfl, rfl⟩

/-- In the fixed order only `RC_SEL_VDR` leads back to `IDLE`. -/
theorem State.afterRequest_stage_ne_idle {s : State} (hi : s.stage ≠ .idle) (hs : s.stage ≠ .rcSelVdr) :
    s.afterRequest.stage ≠ .idle := by
  rcases s.afterRequest_stage with hk | hm
  · rwa [hk]
  · intro h
    rw [h] at hm
    exact hs (by simpa [Stage.order] using hm)

theorem State.afterRequest_out {s : State} (hs : s.stage ≠ .rcSelVdr) : s.afterRequest.out = s.out := by
  unfold State.afterRequest
  cases hst : s.stage with
  | rcSelVdr => exact absurd hst hs
  | _ => rfl

/-- The end of a request ends the command in the last stage of the routed scan, and in no other. -/
theorem State.afterRequest_responds {s : State} (hi : s.stage ≠ .idle) :
    EndsWithResponse s s.afterRequest ∨ SendsNothing s s.afterRequest := by
  by_cases hs : s.stage = .rcSelVdr
  · rw [afterRequest_rcSelVdr hs]; exact .inl ⟨hi, rfl, rfl⟩
  · exact .inr ⟨.inr (State.afterRequest_stage_ne_idle hi hs), congrArg Out.responses (State.afterRequest_out hs)⟩

/-- The node loop stays in a busy stage. -/
theorem SendsNothing.nextNode {s t : State} (hi : t.stage ≠ .idle) (ho : t.out = s.out) : SendsNothing s t.nextNode := by
  refine ⟨.inr ?_, by rw [State.nextNode_out, ho]⟩
  rcases t.nextNode_stage with hk | hk <;> rw [hk]
  · exact hi
  · nofun

/-- Every transaction but a reset ends a command with its response, or sends nothing. -/
theorem Moves.responds {s t : State} (hm : Moves s t) (hnr : s.env.resetReq = false) :
    EndsWithResponse s t ∨ SendsNothing s t := by
  cases hm with
  | reset hr => simp [hr] at hnr
  | completed _ hs => exact State.afterRequest_responds (s := s.executed) hs
  | failed tok _ hs => exact .inl (.raise (s := s.executeFailed) hs _)
  | notFound _ hs | outOfRange _ hs | notDiscovered _ hs => exact .inl (.raise (by simp [hs]) _)
  | wait _ hs | discover _ _ _ hs | route _ _ _ hs | reserved _ _ _ hs => exact .inr ⟨.inl hs, rfl⟩
  | resetTap _ hs | zeroFill _ hs | routed _ hs => exact .inr ⟨.inr (by simp [hs]), rfl⟩
  | select op _ _ _ hs =>
    refine .inr ⟨.inr ?_, rfl⟩
    rcases hs with ⟨-, hs | hs⟩ | ⟨-, hs | hs⟩ <;> simp [hs]
  | nibble _ hs => exact .inr ⟨.inr (by rcases hs with hs | hs <;> simp [hs]), rfl⟩
  | enumerate _ hs => exact .inr (.nextNode (by simp [hs]) rfl)
  | nodeWord _ hs => exact .inr (.nextNode (by simp [hs]) (by simp))
  | hubWord | derive | publish | handoff | checked => exact .inr ⟨.inr nofun, rfl⟩

/-- Settles O47, by cases on the move: a failure and the end of the routed scan respond, each in a busy stage. -/
theorem oneResponsePerCommand : Obligations.OneResponsePerCommand :=
  fun s t h hnr => (step_moves s t h).responds hnr

end Sys2Proof.Machine

namespace Sys2Proof
/-!
PROOF. The Bit-Field Codec: what `PACK` and `UNPACK` do inside and outside the contract of a buffer, and the pure functions.
-/

/-! ### Fields of a buffer -/

/-- A field that a `pack` does not overlap reads as before. -/
theorem Buffer.unpack_pack_disjoint (a : Buffer) {off w off' w' : Nat} (v : Nat) (h : off + w ≤ Buffer.capacity a)
    (hd : off' + w' ≤ off ∨ off + w ≤ off') :
    Buffer.unpack (Buffer.pack a off v w) off' w' = Buffer.unpack a off' w' :=
  Buffer.unpack_congr _ _ _ _ fun j _ _ => by rw [Buffer.bit_pack _ _ _ _ _ h, if_neg (by omega)]

/-- A field inside the one just packed holds the bits of the value that stand there. -/
theorem Buffer.unpack_pack_inside (a : Buffer) {off w lo len : Nat} (v : Nat) (h : off + w ≤ Buffer.capacity a) (hl : lo + len ≤ w) :
    Buffer.unpack (Buffer.pack a off v w) (off + lo) len = v / 2 ^ lo % 2 ^ len := by
  apply Nat.eq_of_testBit_eq
  intro k
  rw [Buffer.testBit_unpack, Nat.testBit_mod_two_pow, Nat.testBit_div_two_pow]
  by_cases hk : k < len
  · rw [Buffer.bit_pack _ _ _ _ _ h, if_pos (by omega)]
    congr 2
    omega
  · simp [hk]

end Sys2Proof

namespace Sys2Proof.Machine

/-- `unpack` reads a field of a register word from the four bytes it was packed into. -/
theorem unpack_pack_word {a : Buffer} (ha : a.length = 4) (w : BitVec 32) {lo len : Nat} (hl : lo + len ≤ 32) :
    Buffer.unpack (Buffer.pack a 0 w.toNat 32) lo len = (w.extractLsb' lo len).toNat := by
  have hc : 0 + 32 ≤ Buffer.capacity a := by rw [Buffer.capacity, ha]
  have h := Buffer.unpack_pack_inside a w.toNat hc hl
  rwa [Nat.zero_add, ← toNat_extractLsb'_eq] at h

@[simp] theorem Memory.get_pack_same (m : Memory) (b : BufId) (off w v : Nat) :
    (m.pack b off w v).get b = Buffer.pack (m.get b) off v w := Memory.get_set_same _ _ _

/-! ### `PACK` and `UNPACK` -/

section
variable {b : BufId} {off w : Nat} {s : State}

/-- `PACK` inside the contract (spec 40_codec.md R130). -/
theorem exec_pack (v : BitVec 64) (hw : w ≤ 64) (h : off + w ≤ 8 * (s.mem.get b).length) :
    exec (.pack b off w v) s = .next { s with mem := s.mem.pack b off w v.toNat } :=
  (if_neg (Nat.not_lt.2 hw)).trans (if_neg (Nat.not_lt.2 h))

/-- `UNPACK` inside the contract (spec 40_codec.md R131). -/
theorem exec_unpack (hw : w ≤ 64) (h : off + w ≤ 8 * (s.mem.get b).length) :
    exec (.unpack b off w) s = .next (s.returns (.nat (Buffer.unpack (s.mem.get b) off w))) :=
  (if_neg (Nat.not_lt.2 hw)).trans (if_neg (Nat.not_lt.2 h))

/-- `PACK` and `UNPACK` outside the contract, by width or by capacity. -/
theorem codec_refused (v : BitVec 64) (h : 64 < w ∨ 8 * (s.mem.get b).length < off + w) :
    (∃ r, exec (.pack b off w v) s = .refused r) ∧ ∃ r, exec (.unpack b off w) s = .refused r := by
  by_cases hw : 64 < w
  · exact (codec_refused_width s b off w v hw).imp (⟨_, ·⟩) (⟨_, ·⟩)
  · exact (codec_refused_capacity s b off w v (Nat.not_lt.1 hw) (h.resolve_left hw)).imp (⟨_, ·⟩) (⟨_, ·⟩)

end

/-- Settles O1: the new memory is `Memory.pack`, and `Buffer.bit_pack` says every bit of it. -/
theorem packWritesItsFieldOnly : Obligations.PackWritesItsFieldOnly := by
  refine fun b off w v s => ⟨fun hw h => ⟨_, exec_pack v hw h, ?length, ?bits, ?others⟩, fun h => (codec_refused v h).1⟩
  case length => rw [Memory.get_pack_same, Buffer.length_pack]
  case bits =>
    intro j
    rw [Memory.get_pack_same, Buffer.bit_pack _ _ _ _ _ h, BitVec.testBit_toNat]
  case others => exact fun b' hb => Memory.get_set_other _ _ _ _ hb

/-- Settles O2: the returned number is `Buffer.unpack`, known by its bound and its bits. -/
theorem unpackReadsItsField : Obligations.UnpackReadsItsField := by
  refine fun b off w s => ⟨fun hw h => ⟨_, exec_unpack hw h, Buffer.unpack_lt _ _ _, fun k hk => ?bits⟩,
    fun h => (codec_refused 0 h).2⟩
  case bits => rw [Buffer.testBit_unpack, decide_eq_true hk, Bool.true_and]

/-- Settles O3: the buffer that `PACK` leaves, read at the same field and at one that does not overlap. -/
theorem unpackAfterPackRoundTrips : Obligations.UnpackAfterPackRoundTrips := by
  intro b off w v s hw h
  have hlen : ((s.mem.pack b off w v.toNat).get b).length = (s.mem.get b).length := by
    rw [Memory.get_pack_same, Buffer.length_pack]
  refine ⟨_, exec_pack v hw h, ?same, fun off' w' hw' h' hd => ⟨_, exec_unpack hw' h', ?disjoint⟩⟩
  case same =>
    rw [exec_unpack hw (by rwa [hlen]), Memory.get_pack_same, Buffer.unpack_pack_self _ _ _ _ h]
    rfl
  case disjoint =>
    rw [exec_unpack hw' (by rwa [hlen]), Memory.get_pack_same, Buffer.unpack_pack_disjoint _ _ h hd]
    rfl

/-! ### `AFW` -/

/-- The width reaches exactly the numbers it can address (spec 40_codec.md R132). -/
theorem addressFieldWidth_le_iff (c k : Nat) : addressFieldWidth c ≤ k ↔ c < 2 ^ k :=
  ⟨fun h => (lt_two_pow_addressFieldWidth c).trans_le (Nat.pow_le_pow_right Nat.two_pos h), addressFieldWidth_le c k⟩

/-- Settles O5, from the two halves of `addressFieldWidth_le_iff`. -/
theorem afwReturnsTheLeastWidth : Obligations.AfwReturnsTheLeastWidth :=
  fun c _ => ⟨addressFieldWidth c, rfl, lt_two_pow_addressFieldWidth c, fun k => (addressFieldWidth_le_iff c k).2⟩

/-- The counts of `k + 1` binary digits (spec 40_codec.md R141). -/
theorem addressFieldWidth_eq_succ {c k : Nat} (hl : 2 ^ k ≤ c) (hu : c < 2 ^ (k + 1)) : addressFieldWidth c = k + 1 := by
  have hle : addressFieldWidth c ≤ k + 1 := (addressFieldWidth_le_iff c _).2 hu
  have hgt : ¬ addressFieldWidth c ≤ k := fun h => Nat.not_lt.2 hl ((addressFieldWidth_le_iff c k).1 h)
  omega

/-- Settles O6, row by row of the table from its bounds. -/
theorem afwTableOfEightBitCounts : Obligations.AfwTableOfEightBitCounts := by
  refine fun s => ⟨rfl, fun c k _ hl hu => ?_⟩
  rw [← addressFieldWidth_eq_succ hl hu]
  rfl

/-! ### `NIBACC` and `ASM32` -/

/-- Settles O7, from the bits of `nibAcc`. -/
theorem nibaccShiftsTheNibbleInAtTheTop : Obligations.NibaccShiftsTheNibbleInAtTheTop :=
  fun acc x _ => ⟨nibAcc acc x, rfl, getLsbD_nibAcc acc x⟩

/-- Settles O8, from the closed form of the eight accumulations, begun at 0. -/
theorem asm32PutsTheFirstNibbleLowest : Obligations.Asm32PutsTheFirstNibbleLowest :=
  fun x0 x1 x2 x3 x4 x5 x6 x7 _ =>
    ⟨assemble32 [x0, x1, x2, x3, x4, x5, x6, x7], rfl, toNat_assemble32 0 x0 x1 x2 x3 x4 x5 x6 x7⟩

/-! ### `DEC_HUB` and `DEC_NODE` -/

/-- The lowest field of a word is what its length keeps. -/
theorem toNat_extractLsb'_low (w : BitVec 32) (len : Nat) : (w.extractLsb' 0 len).toNat = w.toNat % 2 ^ len := by
  rw [toNat_extractLsb'_eq, pow_zero, Nat.div_one]

/-- Settles O9: each field is an extract of the word, and `unpack_pack_word` reads the same extract. -/
theorem decHubReturnsTheFourFields : Obligations.DecHubReturnsTheFourFields :=
  fun w _ =>
    ⟨decHub w, rfl, toNat_extractLsb'_version w, toNat_extractLsb'_eq w 19 8, toNat_extractLsb'_eq w 8 11,
      toNat_extractLsb'_low w 8, fun _ hb =>
        ⟨unpack_pack_word hb w (by decide), unpack_pack_word hb w (by decide), unpack_pack_word hb w (by decide),
          unpack_pack_word hb w (by decide)⟩⟩

/-- Settles O10: each field is an extract of the word. -/
theorem decNodeReturnsTheFourFields : Obligations.DecNodeReturnsTheFourFields :=
  fun w _ =>
    ⟨decNode w, rfl, toNat_extractLsb'_version w, toNat_extractLsb'_eq w 19 8, toNat_extractLsb'_eq w 8 11,
      toNat_extractLsb'_low w 8⟩

/-! ### `MKVIR` -/

/-- The layout of a routed word whose fields fit (spec 30_encoding.md R95). -/
theorem mkVir_div_mod {addr n m v : Nat} (ha : addr < 2 ^ n) (hv : v < 2 ^ m) :
    mkVir addr n m v / 2 ^ m = addr ∧ mkVir addr n m v % 2 ^ m = v := by
  rw [mkVir_of_fits addr n m v ha hv]
  exact (Nat.div_mod_unique (Nat.two_pow_pos m)).2 ⟨by ring, hv⟩

/-- Settles O11, from the bound, the bits and the layout of `mkVir`. -/
theorem mkvirComposesTheRoutedWord : Obligations.MkvirComposesTheRoutedWord := by
  refine fun addr n m v _ => ⟨mkVir addr.toNat n m v.toNat, rfl, mkVir_lt _ _ _ _, fun k hk => ?bits, mkVir_div_mod⟩
  case bits => rw [testBit_mkVir, decide_eq_true hk, Bool.true_and, BitVec.testBit_toNat, BitVec.testBit_toNat]

end Sys2Proof.Machine

namespace Sys2Proof.Machine
/-!
PROOF. The scan interface, request by request: what each bare operation answers, what one request served whole leaves behind, and
what a failing `execute_queue` leaves.
-/

/-! ### The bare operations -/

section
variable {s : State}

theorem State.fits_of_le {w : Nat} {o : Option BufId} (h : ∀ b, o = some b → w ≤ 8 * (s.mem.get b).length) :
    s.fits w o = true := by
  cases o with
  | none => rfl
  | some b => exact decide_eq_true (h b rfl)

/-- `SHIFT_IR` of a legal handle, from a buffer that holds the width (spec 41_scan_interface.md R162). -/
theorem exec_shiftIr {tap : Tap} {w : Nat} {b : BufId} (h4 : 4 ≤ tap.irlen) (h : w ≤ 8 * (s.mem.get b).length) :
    exec (.shiftIr tap w b) s = .next (s.emit (s.irRequest tap w b)) :=
  (if_neg (Nat.not_lt.2 h4)).trans (if_pos (decide_eq_true h))

/-- `SHIFT_DR` whose buffers hold the width (spec 41_scan_interface.md R163). -/
theorem exec_shiftDr {w : Nat} {out cap : Option BufId} (ho : ∀ b, out = some b → w ≤ 8 * (s.mem.get b).length)
    (hc : ∀ b, cap = some b → w ≤ 8 * (s.mem.get b).length) :
    exec (.shiftDr w out cap) s = .next (s.emit (s.drRequest w out cap)) :=
  if_pos (by rw [State.fits_of_le ho, State.fits_of_le hc]; rfl)

end

/-- The bits that a request carries are those at the beginning of its buffer. -/
theorem testBit_unpack_zero (b : Buffer) {w k : Nat} (hk : k < w) :
    (Buffer.unpack b 0 w).testBit k = Buffer.bit b k := by
  rw [Buffer.testBit_unpack, decide_eq_true hk, Bool.true_and, Nat.zero_add]

/-- Settles O12: each operation is `State.emit` of its request, whose value is `unpack` of the buffer named. -/
theorem requestsAreQueuedAndNothingElseHappens : Obligations.RequestsAreQueuedAndNothingElseHappens := by
  refine fun s => ⟨rfl, fun tap w b h4 h => ⟨_, exec_shiftIr h4 h, Buffer.unpack_lt _ _ _, fun k => testBit_unpack_zero _⟩,
    fun w out cap ho hc => ⟨_, exec_shiftDr ho hc, ?none, ?some⟩⟩
  case none => rintro rfl; rfl
  case some =>
    rintro b rfl
    exact ⟨_, rfl, Buffer.unpack_lt _ _ _, fun k => testBit_unpack_zero _⟩

/-- Settles O16: the handle is looked at first, by a command when the engine is idle. -/
theorem narrowTapHandlesAreRefused : Obligations.NarrowTapHandlesAreRefused := by
  refine fun s tap v w b h => ⟨if_pos h, if_pos h, if_pos h, fun hs => ?_⟩
  have hb : ¬ s.busy = true := by simp [State.busy, hs]
  exact ⟨(if_neg hb).trans (if_pos h), (if_neg hb).trans (if_pos h)⟩

/-- Settles O24, from the value of `nibAcc`; a nibble has four bits already. -/
theorem nibbleIsTakenIntoTheAccumulator : Obligations.NibbleIsTakenIntoTheAccumulator :=
  fun x s => ⟨nibAcc s.acc x.toNat, rfl, by rw [toNat_nibAcc, Nat.mod_eq_of_lt x.isLt]⟩

/-! ### The completion channel, with entries on it -/

section
variable {e : Env}

theorem Env.nextAnswer_of_answers {a : Answer} {as : List Answer} (h : e.answers = a :: as) : e.nextAnswer = a := by
  unfold Env.nextAnswer; rw [h]

theorem Env.dropAnswer_of_answers {a : Answer} {as : List Answer} (h : e.answers = a :: as) :
    e.dropAnswer = { e with answers := as } := by
  unfold Env.dropAnswer; rw [h]

theorem Env.nextCapture_of_captures {x : Nat} {xs : List Nat} (h : e.captures = x :: xs) : e.nextCapture = x := by
  unfold Env.nextCapture; rw [h]

theorem Env.dropCapture_of_captures {x : Nat} {xs : List Nat} (h : e.captures = x :: xs) :
    e.dropCapture = { e with captures := xs } := by
  unfold Env.dropCapture; rw [h]

end

/-! ### `EXECUTE` -/

/-- The call of `execute_queue` has been made: it stands in the trace once, also where it was outstanding already. -/
def State.called (s : State) : State :=
  { s with awaiting := true, out := { s.out with trace := if s.awaiting then s.out.trace else s.out.trace ++ [.execute] } }

theorem State.called_eq (s : State) : (if s.awaiting then s else s.await) = s.called := by
  unfold State.called
  cases hw : s.awaiting with
  | false => rfl
  | true => cases s; cases hw; rfl

theorem exec_execute (s : State) : exec .execute s = .next s.called.answered.state := by
  rw [← State.called_eq]; rfl

/-- `EXECUTE` in a stage that waits is the answer to the outstanding call. -/
theorem exec_execute_awaiting {s : State} (hw : s.awaiting = true) : exec .execute s = .next s.answered.state := by
  show Host.Outcome.next (if s.awaiting then s else s.await).answered.state = _
  rw [if_pos hw]

/-- Settles O13, from what filling the capture buffers does to each buffer, and for one capture from the bits of `pack`. -/
theorem executeSuccessFillsTheCaptureBuffers : Obligations.ExecuteSuccessFillsTheCaptureBuffers := by
  intro s ha
  have single {w : Nat} {out : Option Nat} {b : BufId} (hq : s.queue = [.shiftDr w out (some b)])
      (hl : w ≤ 8 * (s.mem.get b).length) :
      s.executed.env = s.env.dropAnswer.dropCapture ∧ ∀ j, Buffer.bit (s.executed.mem.get b) j =
        if j < w then s.env.dropAnswer.nextCapture.testBit j else Buffer.bit (s.mem.get b) j := by
    obtain ⟨hm, he⟩ := executed_capture s w out b hq
    refine ⟨he, fun j => ?_⟩
    rw [hm, Memory.get_pack_same, Buffer.bit_pack _ _ _ _ _ (by rwa [Nat.zero_add])]
    simp
  refine ⟨s.executed.env, s.executed.mem, ?next, executed_commands s, executed_resetReq s, fun b hb => ?others,
    fun w out b x xs a as hq hl hx has => ?onChannel, fun w out b hq hl => single hq hl⟩
  case next => rw [exec_execute, answered_success s.called ha]; rfl
  case others => exact (fillCaptures_mem _ _ b).2 fun ⟨w, out, hm⟩ => hb w out hm
  case onChannel =>
    obtain ⟨he, hbits⟩ := single hq hl
    have hx' : s.env.dropAnswer.captures = x :: xs := by rw [Env.dropAnswer_captures, hx]
    rw [Env.nextCapture_of_captures hx'] at hbits
    rw [he, Env.dropCapture_of_captures hx', Env.dropAnswer_of_answers has]
    exact ⟨rfl, rfl, hbits⟩

/-- A failed request takes nothing from the captured bits (notes/assumptions/4.md). -/
theorem loseCaptures_captures (q : List Request) (p : Env × Memory) : (loseCaptures q p).1.captures = p.1.captures := by
  induction q, p using loseCaptures.induct with
  | case1 p => rfl
  | case2 w o b rs e m ih => exact ih
  | case3 w o rs p ih => exact ih
  | case4 t w v rs p ih => exact ih
  | case5 rs p ih => exact ih

theorem executeFailed_captures (s : State) : s.executeFailed.env.captures = s.env.captures :=
  (loseCaptures_captures _ _).trans s.env.dropAnswer_captures

/-- `VALID` is withdrawn in the three stages of the routed scan of a `discover` (spec 42_discovery.md R201). -/
theorem State.withdraws_eq (s : State) :
    s.withdraws = (s.cmdKind == .discover && (s.stage == .raSelVir || s.stage == .rbVirShift || s.stage == .rcSelVdr)) := by
  unfold State.withdraws
  cases s.stage <;> rfl

/-- Settles O14: the answer is `State.executeFailed`, then the transport error is raised. -/
theorem executeFailureRaisesTransportError : Obligations.ExecuteFailureRaisesTransportError := by
  intro s tok ha
  refine ⟨s.executeFailed.env, s.executeFailed.mem, ?next, executeFailed_commands s, executeFailed_captures s,
    executeFailed_resetReq s, fun b hb => ?others⟩
  case next => rw [exec_execute, answered_failure s.called tok ha, ← State.withdraws_eq]; rfl
  case others => exact (loseCaptures_mem _ _ b).2 fun ⟨w, out, hm⟩ => hb w out hm

end Sys2Proof.Machine

namespace Sys2Proof.Machine
/-!
PROOF. The composed operations: one request served whole on an empty queue, the four operations of one request, and `READ32` as
eight of them.
-/

/-! ### The request of each operation -/

theorem irRequest_packIr (s : State) {tap : Tap} {op : Nat} (h4 : 4 ≤ tap.irlen) (hop : op < 16) :
    (s.packIr tap op).irRequest tap tap.irlen .irbuf = selectRequest tap op :=
  congrArg (Request.shiftIr tap tap.irlen) (unpack_irBuffer _ _ _ (opcode_lt _ _ h4 hop))

theorem drRequest_packZeros (s : State) :
    s.packZeros.drRequest Config.zeroFillBits (some .drbuf) none = .shiftDr 64 (some 0) none :=
  congrArg (fun v => Request.shiftDr 64 (some v) none) (unpack_zeros 8 64)

section
variable (s : State)

/-- A select packs its opcode into `IRBUF` and serves the IR shift (spec 41_scan_interface.md R169, R170). -/
theorem exec_select {i : Instr} {tap : Tap} {op : Nat} (h4 : 4 ≤ tap.irlen)
    (hi : (i = .selVir tap ∧ op = 0x0E) ∨ (i = .selVdr tap ∧ op = 0x0C)) :
    exec i s = .next ((s.packIr tap op).serve (selectRequest tap op)).state := by
  rcases hi with ⟨rfl, rfl⟩ | ⟨rfl, rfl⟩ <;> rw [← irRequest_packIr s h4 (by decide)] <;> exact if_neg (Nat.not_lt.2 h4)

theorem exec_hubAddr0 : exec .hubAddr0 s = .next (s.packZeros.serve (.shiftDr 64 (some 0) none)).state := by
  rw [← drRequest_packZeros s]; rfl

theorem exec_nibscan :
    exec .nibscan s = .next ((s.serve nibbleRequest).andThen fun t => t.returns (.nat t.capturedNibble)) := rfl

theorem exec_read32 :
    exec .read32 s = .next ((readNibbles 8 s.startRead).andThen fun t => t.returns (.word t.acc)) := rfl

end

/-! ### One request served on an empty queue -/

/-- A request that captures nothing, answered `success`. -/
theorem serve_no_capture {s : State} {r : Request} (hq : s.queue = []) (ha : s.env.nextAnswer = .success)
    (hc : ∀ e m, fillCaptures [r] (e, m) = (e, m)) :
    s.serve r = .go { s with
      awaiting := false
      far := s.far.perform r
      env := s.env.dropAnswer
      out := { s.out with trace := s.out.trace ++ [.request r, .execute] } } := by
  rw [serve_success s r ha]
  simp [State.executed, State.emit, State.await, Out.log, hq, hc]

/-- A nibble scan answered `success`, with its bits on the channel. -/
theorem serveNibble_success {s : State} {x : Nat} {xs : List Nat} {as : List Answer} (hq : s.queue = [])
    (ha : s.env.answers = .success :: as) (hx : s.env.captures = x :: xs) :
    s.serveNibble = .go (({ s with awaiting := false } : State).after { s.mem with capbuf := Buffer.pack s.mem.capbuf 0 x 4 }
      (s.far.perform nibbleRequest) [nibbleRequest] as xs) := by
  have he : s.env.dropAnswer = { s.env with answers := as } := Env.dropAnswer_of_answers ha
  have hs : s.serveNibble = _ := serve_success s nibbleRequest (Env.nextAnswer_of_answers ha)
  rw [hs]
  simp [State.executed, State.emit, State.await, State.after, Out.log, hq, he, nibbleRequest, fillCaptures,
    Env.nextCapture_of_captures (e := { s.env with answers := as }) hx,
    Env.dropCapture_of_captures (e := { s.env with answers := as }) hx, servedTrace, Memory.pack, Memory.get, Memory.set]

/-- The four bits just filled into `CAPBUF` are read back. -/
theorem unpack_capbuf {m : Memory} (hm : m.wf = true) (x : Nat) : Buffer.unpack (Buffer.pack m.capbuf 0 x 4) 0 4 = x % 16 :=
  Buffer.unpack_pack_self _ _ _ _ (by rw [Buffer.capacity, ((Memory.wf_iff m).1 hm).2]; decide)

/-! ### The operations of one request -/

/-- Settles O15: the one IR shift of the opcode, served on the empty queue. -/
theorem selectsShiftTheirOpcode : Obligations.SelectsShiftTheirOpcode := by
  intro s tap h4 hq ha i op hi
  have hop : op < 16 := by rcases hi with ⟨-, rfl⟩ | ⟨-, rfl⟩ <;> decide
  rw [exec_select s h4 hi, serve_no_capture (s := s.packIr tap op) hq ha (fun _ _ => rfl)]
  exact ⟨_, rfl, rfl, length_irBuffer _ _ _, unpack_irBuffer _ _ _ (opcode_lt _ _ h4 hop), rfl,
    s.env.dropAnswer_commands, s.env.dropAnswer_captures, s.env.dropAnswer_resetReq⟩

/-- Settles O17: the one nibble scan, served on the empty queue, and the nibble read back from `CAPBUF`. -/
theorem nibscanReturnsTheCapturedNibble : Obligations.NibscanReturnsTheCapturedNibble := by
  intro s x xs as hq hm ha hx
  have hs : s.serve nibbleRequest = _ := serveNibble_success hq ha hx
  have hcap : 0 + 4 ≤ Buffer.capacity s.mem.capbuf := by rw [Buffer.capacity, ((Memory.wf_iff _).1 hm).2]; decide
  rw [exec_nibscan, hs]
  refine ⟨_, rfl, ?same, fun j => ?bits⟩
  case same =>
    show State.returns _ (.nat (Buffer.unpack (Buffer.pack s.mem.capbuf 0 x 4) 0 4)) = _
    rw [unpack_capbuf hm]; rfl
  case bits =>
    show Buffer.bit (Buffer.pack s.mem.capbuf 0 x 4) j = _
    rw [Buffer.bit_pack _ _ _ _ _ hcap]
    simp

/-- Each operation of one request packs at most a buffer and serves its request; a failure is all that comes after it. -/
theorem oneRequest_failure {s : State} {tap : Tap} {tok : Token} (h4 : 4 ≤ tap.irlen)
    (ha : s.env.nextAnswer = .transportError tok) {i : Instr} {r : Request}
    (hi : (i = .selVir tap ∧ r = .shiftIr tap tap.irlen 0x0E) ∨ (i = .selVdr tap ∧ r = .shiftIr tap tap.irlen 0x0C) ∨
      (i = .nibscan ∧ r = .shiftDr 4 none (some .capbuf)) ∨ (i = .hubAddr0 ∧ r = .shiftDr 64 (some 0) none)) :
    ∃ m : Memory, exec i s =
      .next ((({ s with mem := m } : State).emit r).await.executeFailed.raise (.transportError (.chain tok))) := by
  rcases hi with ⟨rfl, rfl⟩ | ⟨rfl, rfl⟩ | ⟨rfl, rfl⟩ | ⟨rfl, rfl⟩
  · exact ⟨(s.packIr tap 0x0E).mem, by
      rw [exec_select s h4 (.inl ⟨rfl, rfl⟩), serve_failure (s.packIr tap 0x0E) _ tok ha]; rfl⟩
  · exact ⟨(s.packIr tap 0x0C).mem, by
      rw [exec_select s h4 (.inr ⟨rfl, rfl⟩), serve_failure (s.packIr tap 0x0C) _ tok ha]; rfl⟩
  · exact ⟨s.mem, by rw [exec_nibscan, serve_failure s _ tok ha]; rfl⟩
  · exact ⟨s.packZeros.mem, by rw [exec_hubAddr0, serve_failure s.packZeros _ tok ha]; rfl⟩

/-- Settles O21: the state that the one failing request leaves, register by register. -/
theorem macrosStopAtAFailingRequest : Obligations.MacrosStopAtAFailingRequest := by
  intro s tap tok h4 hq ha i r hi
  obtain ⟨m, he⟩ := oneRequest_failure h4 ha hi
  rw [he, ← State.withdraws_eq]
  exact ⟨_, rfl, emit_await_trace _ r, rfl, rfl, rfl, rfl, rfl, rfl, rfl, rfl, rfl, rfl, rfl, rfl, rfl, rfl, rfl, rfl⟩

/-! ### `READ32` -/

/-- The state after the nibbles `ys` have been scanned and taken: `CAPBUF`, the far end and the channels as the scans leave them. -/
def State.afterNibbles (s : State) (ys : List Nat) (c : Buffer) (f : FarEnd) (as : List Answer) (xs : List Nat) : State :=
  { s with
    awaiting := ys.isEmpty && s.awaiting
    acc := ys.foldl nibAcc s.acc
    nibCnt := s.nibCnt + BitVec.ofNat 4 ys.length
    mem := { s.mem with capbuf := c }
    far := f
    env := { s.env with answers := as, captures := xs }
    out := { s.out with trace := s.out.trace ++ servedTrace (List.replicate ys.length nibbleRequest) } }

theorem State.afterNibbles_nil (s : State) : s.afterNibbles [] s.mem.capbuf s.far s.env.answers s.env.captures = s := by
  simp [State.afterNibbles, servedTrace]

theorem State.afterNibbles_cons (s : State) (y : Nat) (ys : List Nat) (c c' : Buffer) (f f' : FarEnd) (as as' : List Answer)
    (xs xs' : List Nat) :
    (s.afterNibbles [y] c f as xs).afterNibbles ys c' f' as' xs' = s.afterNibbles (y :: ys) c' f' as' xs' := by
  have hn : s.nibCnt + 1#4 + BitVec.ofNat 4 ys.length = s.nibCnt + BitVec.ofNat 4 (ys.length + 1) := by
    rw [Nat.add_comm, BitVec.ofNat_add, BitVec.add_assoc]
  simp [State.afterNibbles, servedTrace, List.replicate_succ, hn]

/-- One turn of the loop of `READ32` with a nibble on the channel. -/
theorem readNibbles_succ {s : State} {x : Nat} {xs : List Nat} {as : List Answer} (n : Nat) (hq : s.queue = [])
    (hm : s.mem.wf = true) (ha : s.env.answers = .success :: as) (hx : s.env.captures = x :: xs) :
    readNibbles (n + 1) s = readNibbles n
      (s.afterNibbles [x] (Buffer.pack s.mem.capbuf 0 x 4) (s.far.perform nibbleRequest) as xs) := by
  rw [readNibbles, serveNibble_success hq ha hx]
  show readNibbles n (State.takeNibble _ (Buffer.unpack (Buffer.pack s.mem.capbuf 0 x 4) 0 4)) = _
  rw [unpack_capbuf hm]
  simp [State.takeNibble, State.after, State.afterNibbles, nibAcc_mod]

/-- The loop of `READ32` with all its nibbles on the channel: the accumulator folds them in. -/
theorem readNibbles_success (ys xs : List Nat) (as : List Answer) (s : State) (hq : s.queue = []) (hm : s.mem.wf = true)
    (ha : s.env.answers = List.replicate ys.length .success ++ as) (hx : s.env.captures = ys ++ xs) :
    ∃ c f, readNibbles ys.length s = .go (s.afterNibbles ys c f as xs) := by
  induction ys generalizing s with
  | nil =>
    obtain rfl : s.env.answers = as := ha
    obtain rfl : s.env.captures = xs := hx
    exact ⟨s.mem.capbuf, s.far, by rw [State.afterNibbles_nil]; rfl⟩
  | cons y ys ih =>
    obtain ⟨hd, hc⟩ := (Memory.wf_iff _).1 hm
    have hm' : ({ s.mem with capbuf := Buffer.pack s.mem.capbuf 0 y 4 } : Memory).wf = true :=
      (Memory.wf_iff _).2 ⟨hd, (Buffer.length_pack _ _ _ _).trans hc⟩
    obtain ⟨c, f, hr⟩ := ih (s.afterNibbles [y] _ _ _ _) hq hm' rfl rfl
    rw [State.afterNibbles_cons] at hr
    exact ⟨c, f, (readNibbles_succ ys.length hq hm ha hx).trans hr⟩

/-- Settles O18, from the loop of `READ32` on eight nibbles, begun with the accumulator at 0. -/
theorem read32AssemblesEightNibbles : Obligations.Read32AssemblesEightNibbles := by
  intro s x0 x1 x2 x3 x4 x5 x6 x7 xs as hq hm ha hx
  obtain ⟨c, f, hr⟩ := readNibbles_success [x0, x1, x2, x3, x4, x5, x6, x7] xs as s.startRead hq hm ha hx
  have hr : readNibbles 8 s.startRead = _ := hr
  rw [exec_read32, hr]
  exact ⟨_, rfl, rfl, toNat_assemble32 0 x0 x1 x2 x3 x4 x5 x6 x7⟩

/-- The state when the nibble scan after `k` others has failed: the command has ended, the registers of the read and the channels
are as the scans leave them. -/
def State.failedAfterNibbles (s : State) (k : Nat) (tok : Token) (a : BitVec 32) (n : BitVec 4) (m : Memory) (e : Env) : State :=
  { s.raise (.transportError (.chain tok)) with
    acc := a
    nibCnt := n
    mem := m
    queue := []
    far := .unknown
    env := e
    out := { s.out.respond .transportError with
      trace := s.out.trace ++ servedTrace (List.replicate (k + 1) nibbleRequest) } }

/-- The loop of `READ32` whose nibble `k` fails, whatever the `n` nibbles after it. -/
theorem readNibbles_failure (n : Nat) (tok : Token) (as : List Answer) (k : Nat) (s : State)
    (ha : s.env.answers = List.replicate k .success ++ .transportError tok :: as) :
    ∃ a c m e, readNibbles (k + 1 + n) s = .ended (s.failedAfterNibbles k tok a c m e) ∧
      e.answers = as ∧ e.commands = s.env.commands := by
  induction k generalizing s with
  | zero =>
    have hs : s.serveNibble = _ := serve_failure s nibbleRequest tok (Env.nextAnswer_of_answers ha)
    refine ⟨s.acc, s.nibCnt, (s.emit nibbleRequest).await.executeFailed.mem, (s.emit nibbleRequest).await.executeFailed.env,
      ?loop, ?answers, executeFailed_commands (s.emit nibbleRequest).await⟩
    case loop =>
      rw [Nat.zero_add, Nat.add_comm, readNibbles, hs]
      have htr : s.out.trace ++ servedTrace (List.replicate (0 + 1) nibbleRequest) = (s.emit nibbleRequest).await.out.trace :=
        (emit_await_trace s nibbleRequest).symm
      unfold State.failedAfterNibbles
      rw [htr]
      rfl
    case answers =>
      rw [State.executeFailed_env, (loseCaptures_env _ _).2.2]
      exact congrArg Env.answers (Env.dropAnswer_of_answers ha)
  | succ k ih =>
    obtain ⟨u, hu⟩ : ∃ u, u = (s.emit nibbleRequest).await.executed := ⟨_, rfl⟩
    have hs : s.serveNibble = .go u := hu ▸ serve_success s nibbleRequest (Env.nextAnswer_of_answers ha)
    have hau : u.env.answers = List.replicate k .success ++ .transportError tok :: as := by
      rw [hu, executed_answers]
      exact congrArg Env.answers (Env.dropAnswer_of_answers ha)
    obtain ⟨a, c, m, e, hr, he, hc⟩ := ih (u.takeNibble u.capturedNibble) hau
    refine ⟨a, c, m, e, ?loop, he, hc.trans (hu ▸ executed_commands (s.emit nibbleRequest).await)⟩
    case loop =>
      rw [show k + 1 + 1 + n = (k + 1 + n) + 1 by omega, readNibbles, hs]
      refine hr.trans ?_
      have htr : u.out.trace ++ servedTrace (List.replicate (k + 1) nibbleRequest) =
          s.out.trace ++ servedTrace (List.replicate (k + 2) nibbleRequest) := by
        rw [List.replicate_succ (n := k + 1), ← List.singleton_append, servedTrace_append, ← List.append_assoc, hu]
        exact congrArg (· ++ _) (emit_await_trace s nibbleRequest)
      simp only [State.failedAfterNibbles, State.takeNibble_out, htr]
      rw [hu]
      rfl

/-- Settles O19: the loop of `READ32` stops after `k` nibbles, `7 - k` of them not begun. -/
theorem read32StopsAtTheFailingNibble : Obligations.Read32StopsAtTheFailingNibble := by
  intro s k tok as hk _ _ ha
  obtain ⟨a, c, m, e, hr, he, hc⟩ := readNibbles_failure (7 - k) tok as k s.startRead ha
  rw [show k + 1 + (7 - k) = 8 by omega] at hr
  rw [exec_read32, hr, ← State.withdraws_eq]
  exact ⟨_, rfl, rfl, rfl, rfl, rfl, rfl, rfl, rfl, rfl, rfl, rfl, rfl, rfl, rfl, rfl, rfl, rfl, rfl, rfl, he, hc⟩

end Sys2Proof.Machine

namespace Sys2Proof.Machine
/-!
PROOF. The step at the scan interface: it always answers, the queue follows the wait, and the two ends of a request that a stage
waits for.
-/

/-! ### A step whatever the oracle answers -/

/-- A command with a legal handle, taken by an idle engine, is accepted or dropped. -/
theorem exec_decodeCommand_next {s : State} (hs : s.stage = .idle) (w : BitVec 34) {tap : Tap} (h4 : 4 ≤ tap.irlen) :
    ∃ t, exec (decodeCommand w tap) s = .next t := by
  have hb : ¬ s.busy = true := by simp [State.busy, hs]
  unfold decodeCommand
  split
  · exact ⟨_, (if_neg hb).trans (if_neg (Nat.not_lt.2 h4))⟩
  · split
    · exact ⟨_, (if_neg hb).trans (if_neg (Nat.not_lt.2 h4))⟩
    · split <;> exact ⟨_, rfl⟩

/-- A coherent busy stage with no request outstanding has its operation: the handle is legal, the buffers hold the width, and a
routed scan has its published result. -/
theorem State.Coherent.issue_next {s : State} (h : s.Coherent) (hi : s.stage ≠ .idle) : ∃ t, issue s = .next t := by
  have h4 := h.tap hi
  have h8 : ¬ s.nibCnt.toNat < 8 → s.nibCnt = 8 := fun hn => by
    have := h.nibbles
    exact BitVec.eq_of_toNat_eq (by show s.nibCnt.toNat = 8; omega)
  cases hs : s.stage with
  | idle => exact absurd hs hi
  | s1Reset => exact ⟨_, issue_s1Reset hs⟩
  | s2SelVir => exact ⟨_, (issue_selectVir (.inl hs)).trans (issueSelect_eq s _ (by decide) h4)⟩
  | s3HubAddr0 => exact ⟨_, (issue_s3HubAddr0 hs).trans (issueZeros_eq s)⟩
  | s4SelVdr => exact ⟨_, (issue_selectVdr (.inl hs)).trans (issueSelect_eq s _ (by decide) h4)⟩
  | s5HubRead =>
    by_cases hn : s.nibCnt.toNat < 8
    · exact ⟨_, (issue_nibble (.inl hs) hn).trans (issueNibble_eq s h.memory)⟩
    · exact ⟨_, by rw [issue_hubWord hs (h8 hn), exec_decodeHub]; rfl⟩
  | s6Derive => exact ⟨_, issue_s6Derive hs⟩
  | s7Enum =>
    by_cases hn : s.nibCnt.toNat < 8
    · exact ⟨_, (issue_nibble (.inr hs) hn).trans (issueNibble_eq s h.memory)⟩
    · by_cases hx : s.nodeIdx = 0
      · exact ⟨_, issue_enumerate hs (h8 hn) hx⟩
      · exact ⟨_, by rw [issue_nodeWord hs (h8 hn) hx, exec_decodeNode]; rfl⟩
  | s8Final =>
    cases hf : s.found with
    | false => exact ⟨_, issue_notFound hs hf⟩
    | true =>
      by_cases hw : 64 < s.routedWidth
      · exact ⟨_, issue_outOfRange hs hf hw⟩
      · exact ⟨_, issue_publish hs hf (Nat.not_lt.1 hw)⟩
  | s9Handoff => exact ⟨_, issue_s9Handoff hs⟩
  | r0Check =>
    cases hv : s.valid with
    | false => exact ⟨_, issue_notDiscovered hs hv⟩
    | true => exact ⟨_, issue_checked hs hv⟩
  | raSelVir => exact ⟨_, (issue_selectVir (.inr hs)).trans (issueSelect_eq s _ (by decide) h4)⟩
  | rbVirShift =>
    have hv : s.valid = true := h.routing (by rw [hs]; rfl)
    obtain ⟨-, -, -, h64⟩ := h.published hv
    exact ⟨_, (issue_rbVirShift hs hv).trans (issueRouted_eq s h.memory h64)⟩
  | rcSelVdr => exact ⟨_, (issue_selectVdr (.inr hs)).trans (issueSelect_eq s _ (by decide) h4)⟩

/-- Settles O41: a reset, the command taken, the answer to a call, or the operation of the stage. -/
theorem stepAnswersWhateverTheOracle : Obligations.StepAnswersWhateverTheOracle := by
  intro s h hc
  cases hr : s.env.resetReq with
  | true => exact ⟨s.engineReset, if_pos hr⟩
  | false =>
    by_cases hs : s.stage = .idle
    · rw [step_idle s hr hs]
      cases hcs : s.env.commands with
      | nil => exact ⟨s, by unfold takeCommand; rw [hcs]⟩
      | cons c cs =>
        rw [takeCommand_cons hcs]
        exact exec_decodeCommand_next (s := s.withCommands cs) hs c.word (hc hs hr c cs hcs)
    · rw [step_busy s hr hs]
      split
      · exact ⟨_, rfl⟩
      · exact h.issue_next hs

/-! ### The queue -/

@[simp] theorem State.afterRequest_queue (s : State) : s.afterRequest.queue = s.queue := by
  unfold State.afterRequest; split <;> rfl

theorem State.afterRequest_awaiting {s : State} (h : s.awaiting = false) : s.afterRequest.awaiting = false := by
  unfold State.afterRequest
  cases s.stage with
  | rcSelVdr => rfl
  | _ => exact h

@[simp] theorem State.nextNode_queue (s : State) : s.nextNode.queue = s.queue := by unfold State.nextNode; split <;> rfl
@[simp] theorem State.nextNode_awaiting (s : State) : s.nextNode.awaiting = s.awaiting := by
  unfold State.nextNode; split <;> rfl
@[simp] theorem State.takeNode_queue (s : State) (w : BitVec 32) : (s.takeNode w).queue = s.queue := by
  rw [State.takeNode_eq]

/-- The queue holds one request exactly while the engine waits, and an idle engine does not wait. -/
def State.QueueFollowsWait (s : State) : Prop :=
  (s.stage = .idle → s.awaiting = false) ∧ s.queue.length = s.awaiting.toNat

/-- An engine that does not wait, with an empty queue. -/
theorem State.QueueFollowsWait.free {s : State} (hw : s.awaiting = false) (hq : s.queue = []) : s.QueueFollowsWait :=
  ⟨fun _ => hw, by rw [hq, hw]; rfl⟩

/-- A busy engine that has emitted one request and called `execute_queue`. -/
theorem State.QueueFollowsWait.issued {s : State} (r : Request) (hi : s.stage ≠ .idle) (hq : s.queue = []) :
    (s.emit r).await.QueueFollowsWait :=
  ⟨fun hs => absurd hs hi, by show (s.queue ++ [r]).length = 1; rw [hq]; rfl⟩

/-- Every transaction but a reset keeps it: a request is issued on an empty queue, and the answer empties the queue. -/
theorem Moves.queueFollowsWait {s t : State} (hm : Moves s t) (hr : s.env.resetReq = false) (h : s.QueueFollowsWait) :
    t.QueueFollowsWait := by
  obtain ⟨hi, hl⟩ := h
  have empty (hw : s.awaiting = false) : s.queue = [] := List.length_eq_zero_iff.1 (by rw [hl, hw]; rfl)
  cases hm with
  | reset hr' => simp [hr] at hr'
  | wait => exact ⟨hi, hl⟩
  | discover c cs _ hs | route c cs _ hs => exact .free rfl (empty (hi hs))
  | reserved c cs _ hs => exact .free (hi hs) (empty (hi hs))
  | completed => exact .free (State.afterRequest_awaiting rfl) (State.afterRequest_queue _)
  | failed => exact .free rfl rfl
  | resetTap _ hs hw => exact .issued _ (by simp [hs]) (empty hw)
  | select op _ hw _ hs =>
    have hb : s.stage ≠ .idle := by rcases hs with ⟨-, hs | hs⟩ | ⟨-, hs | hs⟩ <;> simp [hs]
    exact .issued (s := s.packIr s.cmdTap op) _ hb (empty hw)
  | zeroFill _ hs hw => exact .issued (s := s.packZeros) _ (by simp [hs]) (empty hw)
  | nibble _ hs hw => exact .issued _ (by rcases hs with hs | hs <;> simp [hs]) (empty hw)
  | routed _ hs hw => exact .issued (s := s.packRouted) _ (by simp [hs]) (empty hw)
  | hubWord _ _ hw | derive _ _ hw | publish _ _ hw | handoff _ _ hw | checked _ _ hw => exact .free hw (empty hw)
  | enumerate _ _ hw | nodeWord _ _ hw => exact .free (by simp [hw]) (by simp [empty hw])
  | notFound _ _ hw | outOfRange _ _ hw | notDiscovered _ _ hw => exact .free rfl (empty hw)

/-- Settles O49, by cases on the move. -/
theorem queueHoldsAtMostOneRequest : Obligations.QueueHoldsAtMostOneRequest :=
  fun s t h hr hi hl => (step_moves s t h).queueFollowsWait hr ⟨hi, hl⟩

/-! ### The answer that a stage waits for -/

/-- A failure, in whatever stage waits, is the failure of `execute_queue` and nothing more. -/
theorem step_failed {s : State} {tok : Token} (hr : s.env.resetReq = false) (hs : s.stage ≠ .idle) (hw : s.awaiting = true)
    (ha : s.env.nextAnswer = .transportError tok) :
    step s = .next (s.executeFailed.raise (.transportError (.chain tok))) := by
  rw [step_busy s hr hs, if_pos hw, complete, answered_failure s tok ha]; rfl

/-- Settles O50: the state that the failing `execute_queue` leaves, register by register. -/
theorem transportFailureStopsTheCommand : Obligations.TransportFailureStopsTheCommand := by
  intro s tok hr hs hw ha
  rw [← State.withdraws_eq]
  exact ⟨_, step_failed hr hs hw ha, rfl, rfl, rfl, rfl, rfl, rfl, rfl, rfl, rfl, rfl, rfl, rfl, rfl, rfl, rfl, rfl, rfl, rfl⟩

/-- Taking the captured nibble is the instruction `NIBBLE` on the four bits of `CAPBUF`. -/
theorem exec_capturedNibble (s : State) :
    ∃ x : BitVec 4, x.toNat = Buffer.unpack s.mem.capbuf 0 4 ∧ exec (.nibble x) s = .next (s.takeNibble s.capturedNibble) := by
  have hx : (BitVec.ofNat 4 s.capturedNibble).toNat = s.capturedNibble := Nat.mod_eq_of_lt (Buffer.unpack_lt _ _ _)
  exact ⟨_, hx, congrArg (fun n => Host.Outcome.next (s.takeNibble n)) hx⟩

/-- Settles O60: after `EXECUTE` the step is the move of the stage. -/
theorem stepGoesOnWhenTheRequestCompletes : Obligations.StepGoesOnWhenTheRequestCompletes := by
  intro s hr hw ha
  have step_eq {st : Stage} (hs : s.stage = st) (hi : st ≠ .idle) : step s = .next s.executed.afterRequest :=
    step_complete s hr (hs ▸ hi) hw ha
  refine ⟨s.executed, ?execute, fun hs => ?_, fun hs => ?_, fun hs => ?_, fun hs => ?_, fun hs => ?nibble, fun hs => ?_,
    fun hs => ?_, fun hs => ?_⟩
  case execute => rw [exec_execute_awaiting hw, answered_success s ha]; rfl
  case nibble =>
    have hrd : s.executed.stage.reads = true := (Stage.reads_iff _).2 hs
    obtain ⟨x, hx, he⟩ := exec_capturedNibble s.executed
    refine ⟨x, hx, ?_⟩
    rw [he, step_complete s hr (by rcases hs with hs | hs <;> simp [hs]) hw ha, afterRequest_of_reads hrd]
  · rw [step_eq hs nofun, afterRequest_s1Reset (s := s.executed) hs]; rfl
  · rw [step_eq hs nofun, afterRequest_s2SelVir (s := s.executed) hs]; rfl
  · rw [step_eq hs nofun, afterRequest_s3HubAddr0 (s := s.executed) hs]; rfl
  · rw [step_eq hs nofun, afterRequest_s4SelVdr (s := s.executed) hs]; rfl
  · rw [step_eq hs nofun, afterRequest_raSelVir (s := s.executed) hs]; rfl
  · rw [step_eq hs nofun, afterRequest_rbVirShift (s := s.executed) hs]; rfl
  · rw [step_eq hs nofun, afterRequest_rcSelVdr (s := s.executed) hs]; rfl

end Sys2Proof.Machine

namespace Sys2Proof.Machine
/-!
PROOF. The words of a discovery run: the zero fill of step 3, the hub's word, the node words, and the acceptance of the command.
-/

/-! ### The zero fill -/

/-- Settles O20: the one request of 64 zero bits, served on the empty queue; with `USER1` loaded it selects hub address 0. -/
theorem hubAddr0ShiftsSixtyFourZeros : Obligations.HubAddr0ShiftsSixtyFourZeros := by
  intro s hq ha
  rw [exec_hubAddr0, serve_no_capture (s := s.packZeros) hq ha (fun _ _ => rfl)]
  exact ⟨_, rfl, rfl, s.far.scanDr_user1 64 (some 0), s.env.dropAnswer_commands, s.env.dropAnswer_captures,
    s.env.dropAnswer_resetReq⟩

/-! ### The hub's word -/

/-- A field of a word is the low bits of what is left of the word above the field's beginning. -/
theorem extractLsb'_eq_ofNat (w : BitVec 32) (lo len : Nat) :
    w.extractLsb' lo len = BitVec.ofNat len (w.toNat / 2 ^ lo) := by
  rw [← Nat.shiftRight_eq_div_pow]; rfl

/-- Settles O25: the word decodes to its fields, which `State.takeHubWord` writes. -/
theorem hubWordSetsCountAndWidth : Obligations.HubWordSetsCountAndWidth := by
  intro w i s hd
  obtain rfl : decodeHub w = i := Except.ok.inj ((decode_hubRegister w).symm.trans hd)
  rw [exec_decodeHub, extractLsb'_eq_ofNat, extractLsb'_eq_ofNat, pow_zero, Nat.div_one]
  rfl

/-! ### Node words -/

/-- The first match: the address is `NODE_IDX` (spec 42_discovery.md R198). -/
theorem State.recordMatch_first {s : State} (h : s.found = false) :
    s.recordMatch = { s with vjtagAddr := s.nodeIdx, found := true } := by
  unfold State.recordMatch; rw [h]; rfl

/-- A later match changes nothing. -/
theorem State.recordMatch_later {s : State} (h : s.found = true) : s.recordMatch = s := by
  cases s; cases h; rfl

/-- Settles O26: by the tag, and for a tagged word by `FOUND`. -/
theorem nodeWordRecordsTheFirstMatch : Obligations.NodeWordRecordsTheFirstMatch := by
  intro w i s hd
  obtain rfl : decodeNode w = i := Except.ok.inj ((decode_nodeRegister w).symm.trans hd)
  rw [exec_decodeNode, State.takeNode]
  by_cases ht : w.extractLsb' 19 8 = Config.vjtagNodeId
  · rw [if_pos ht]
    rw [extractLsb'_eq_vjtagNodeId_iff] at ht
    rcases Bool.eq_false_or_eq_true s.found with hf | hf
    · rw [State.recordMatch_later (s := s.takeNodeWord w) hf, if_neg (by simp [hf])]; rfl
    · rw [State.recordMatch_first (s := s.takeNodeWord w) hf, if_pos ⟨ht, hf⟩]; rfl
  · rw [if_neg ht, if_neg fun h => ht ((extractLsb'_eq_vjtagNodeId_iff w).2 h.1)]; rfl

/-- Settles O27: the three words by their definitions, the tagged one by `FOUND`. -/
theorem registerWordsCompleteFromTheirFields : Obligations.RegisterWordsCompleteFromTheirFields :=
  fun v _ f m s =>
    ⟨rfl, fun _ => rfl,
      fun h => congrArg _ (State.recordMatch_first (s := s.takeNodeWord (joinFields v Config.vjtagNodeId f m)) h),
      fun h => congrArg _ (State.recordMatch_later (s := s.takeNodeWord (joinFields v Config.vjtagNodeId f m)) h)⟩

/-! ### Acceptance -/

/-- An idle engine accepts a `discover` of a legal handle. -/
theorem exec_discover_idle {s : State} {tap : Tap} (hs : s.stage = .idle) (h4 : 4 ≤ tap.irlen) :
    exec (.discover tap) s = .next (s.acceptDiscover tap) :=
  (if_neg (by simp [State.busy, hs])).trans (if_neg (Nat.not_lt.2 h4))

/-- `IRBUF` at the size of a handle holds in each of its bits what it held there, and 0 where it had none. -/
theorem Memory.bit_forHandle (m : Memory) {tap : Tap} {j : Nat} (h : j < 8 * irBytes tap.irlen) :
    Buffer.bit (m.forHandle tap).irbuf j = Buffer.bit m.irbuf j := by
  rw [Memory.forHandle_irbuf, Buffer.bit_resize, decide_eq_true (by omega), Bool.true_and]

/-- Settles O31: the next state is `State.acceptDiscover`, whose `IRBUF` is the old one at the size of the handle. -/
theorem discoverIsAcceptedWhenIdle : Obligations.DiscoverIsAcceptedWhenIdle := by
  intro s tap hs h4
  refine ⟨(s.mem.forHandle tap).irbuf, ⟨Memory.forHandle_irbuf_length _ _, fun j hj => ?bits⟩, exec_discover_idle hs h4⟩
  case bits => exact s.mem.bit_forHandle (by rwa [Memory.forHandle_irbuf_length] at hj)

end Sys2Proof.Machine

namespace Sys2Proof.Machine
/-!
PROOF. Every command ends: the number of steps that a busy engine has left at most, from the stage, the two loop counters and the
wait, falls with every step (spec 42_discovery.md R205).
-/

/-! ### The channel of reset requests -/

@[simp] theorem State.afterRequest_env (s : State) : s.afterRequest.env = s.env := by
  unfold State.afterRequest; split <;> rfl

@[simp] theorem State.nextNode_env (s : State) : s.nextNode.env = s.env := by unfold State.nextNode; split <;> rfl
@[simp] theorem State.takeNode_env (s : State) (w : BitVec 32) : (s.takeNode w).env = s.env := by rw [State.takeNode_eq]

/-- No transaction asks for a reset. -/
theorem Moves.resetReq {s t : State} (hm : Moves s t) (hr : s.env.resetReq = false) : t.env.resetReq = false := by
  cases hm with
  | completed => rw [State.afterRequest_env, executed_resetReq, hr]
  | failed => rw [State.raise_env, executeFailed_resetReq, hr]
  | enumerate => rw [State.nextNode_env, hr]
  | nodeWord => rw [State.nextNode_env, State.takeNode_env, hr]
  | reset => rfl
  | wait | discover | route | reserved | resetTap | select | zeroFill | nibble | hubWord | derive | notFound | outOfRange
    | publish | handoff | notDiscovered | checked | routed => exact hr

/-! ### The steps left -/

/-- At most so many steps are left until `IDLE`, with no request outstanding: two for a request, one for any other move, and
seventeen for a node, of which there are up to 255 before the hub's word is decoded. -/
def State.stepsFree (s : State) : Nat :=
  match s.stage with
  | .idle => 0
  | .rcSelVdr => 2
  | .rbVirShift => 4
  | .raSelVir => 6
  | .r0Check => 7
  | .s9Handoff => 7
  | .s8Final => 8
  | .s7Enum => 17 * (s.nodeCount.toNat - s.nodeIdx.toNat) + 2 * (8 - s.nibCnt.toNat) + 9
  | .s6Derive => 17 * s.nodeCount.toNat + 10
  | .s5HubRead => 2 * (8 - s.nibCnt.toNat) + 4346
  | .s4SelVdr => 4364
  | .s3HubAddr0 => 4366
  | .s2SelVir => 4368
  | .s1Reset => 4370

/-- A request that is outstanding already has one step left, its answer. -/
def State.stepsLeft (s : State) : Nat := s.stepsFree - s.awaiting.toNat

theorem State.stepsLeft_le (s : State) : s.stepsLeft ≤ 4370 := by
  have := s.nodeCount.isLt
  unfold State.stepsLeft State.stepsFree
  cases s.stage <;> dsimp only <;> omega

theorem State.stepsLeft_free {s : State} (h : s.awaiting = false) : s.stepsLeft = s.stepsFree := by
  unfold State.stepsLeft; rw [h]; rfl

theorem State.stepsLeft_waiting {s : State} (h : s.awaiting = true) : s.stepsLeft = s.stepsFree - 1 := by
  unfold State.stepsLeft; rw [h]; rfl

/-- Each busy stage counts two steps at least, so that one is left also when its request is outstanding. -/
theorem State.two_le_stepsFree {s : State} (h : s.stage ≠ .idle) : 2 ≤ s.stepsFree := by
  unfold State.stepsFree
  cases hs : s.stage with
  | idle => exact absurd hs h
  | _ => dsimp only; omega

theorem State.stepsLeft_pos {s : State} (h : s.stage ≠ .idle) : 0 < s.stepsLeft := by
  have := State.two_le_stepsFree h
  have := Bool.toNat_le s.awaiting
  unfold State.stepsLeft; omega

theorem State.stepsLeft_idle {s : State} (h : s.stage = .idle) : s.stepsLeft = 0 := by
  unfold State.stepsLeft State.stepsFree; rw [h]; exact Nat.zero_sub _

/-- A request costs two steps: it is issued in one. -/
theorem State.stepsLeft_issued {s : State} (h : s.stage ≠ .idle) (hw : s.awaiting = false) (m : Memory) (r : Request) :
    (({ s with mem := m } : State).emit r).await.stepsLeft < s.stepsLeft := by
  have h2 := State.two_le_stepsFree h
  have he : (({ s with mem := m } : State).emit r).await.stepsFree = s.stepsFree := rfl
  rw [State.stepsLeft_free hw, State.stepsLeft_waiting rfl, he]
  omega

/-- What is left at the end of a request is two steps less than before its emission. -/
theorem State.stepsFree_afterRequest {s : State} (hq : s.stage.requests = true)
    (hn : s.stage.reads = true → s.nibCnt.toNat < 8) : s.afterRequest.stepsFree + 2 ≤ s.stepsFree := by
  have hn' (h : s.nibCnt.toNat < 8) : (s.nibCnt + 1).toNat = s.nibCnt.toNat + 1 := by bv_omega
  cases hs : s.stage with
  | s5HubRead | s7Enum =>
    have hr : s.stage.reads = true := by rw [hs]; rfl
    have h8 := hn hr
    rw [afterRequest_of_reads hr]
    simp only [State.stepsFree, State.takeNibble_stage, State.takeNibble_nibCnt, State.takeNibble_nodeCount,
      State.takeNibble_nodeIdx, hs, hn' h8]
    omega
  | idle | s6Derive | s8Final | s9Handoff | r0Check => rw [hs] at hq; cases hq
  | s1Reset | s2SelVir | s3HubAddr0 | s4SelVdr | raSelVir | rbVirShift | rcSelVdr =>
    simp [State.stepsFree, State.afterRequest, hs]

/-- The node loop goes on to a node that has not been counted yet, or ends. -/
theorem State.stepsFree_nextNode {s : State} (hs : s.stage = .s7Enum) : s.nextNode.stepsFree < s.stepsFree := by
  by_cases hlt : s.nodeIdx.toNat < s.nodeCount.toNat
  · have hi : (s.nodeIdx + 1).toNat = s.nodeIdx.toNat + 1 := by bv_omega
    have h0 : (0 : BitVec 4).toNat = 0 := rfl
    rw [State.nextNode_begin s hlt]
    simp only [State.stepsFree, hs, hi, h0]
    omega
  · rw [State.nextNode_end s (Nat.le_of_not_lt hlt)]
    simp only [State.stepsFree, State.goto_stage, hs]
    omega

/-- Every transaction of a busy engine but a reset leaves fewer steps. -/
theorem Moves.stepsLeft_lt {s t : State} (hm : Moves s t) (h : s.Coherent) (hr : s.env.resetReq = false) (hb : s.stage ≠ .idle) :
    t.stepsLeft < s.stepsLeft := by
  have ended {u : State} (hu : u.stage = .idle) : u.stepsLeft < s.stepsLeft := by
    rw [State.stepsLeft_idle hu]; exact State.stepsLeft_pos hb
  have moved {u : State} (hw : s.awaiting = false) (hu : u.stepsFree < s.stepsFree) : u.stepsLeft < s.stepsLeft := by
    rw [State.stepsLeft_free hw]; exact Nat.lt_of_le_of_lt (Nat.sub_le _ _) hu
  cases hm with
  | reset hr' => simp [hr] at hr'
  | wait _ hs | discover _ _ _ hs | route _ _ _ hs | reserved _ _ _ hs => exact absurd hs hb
  | completed _ _ hw =>
    obtain ⟨hq, hn⟩ := h.waiting hw
    have h2 : s.executed.afterRequest.stepsFree + 2 ≤ s.stepsFree := State.stepsFree_afterRequest (s := s.executed) hq hn
    rw [State.stepsLeft_waiting hw, State.stepsLeft_free (State.afterRequest_awaiting rfl)]
    omega
  | failed | notFound | outOfRange | notDiscovered => exact ended rfl
  | resetTap _ _ hw => exact State.stepsLeft_issued hb hw s.mem _
  | select op _ hw => exact State.stepsLeft_issued hb hw (s.packIr s.cmdTap op).mem _
  | zeroFill _ _ hw => exact State.stepsLeft_issued hb hw s.packZeros.mem _
  | nibble _ _ hw => exact State.stepsLeft_issued hb hw s.mem _
  | routed _ _ hw => exact State.stepsLeft_issued hb hw s.packRouted.mem _
  | hubWord _ hs hw =>
    refine moved hw ?_
    have := (s.acc.extractLsb' 19 8).isLt
    simp only [State.stepsFree, State.goto_stage, State.goto_nodeCount, State.takeHubWord_nodeCount, hs]
    omega
  | derive _ hs hw =>
    refine moved hw ?_
    have hn : s.nibCnt.toNat = 8 := h.derived hs
    simp [State.stepsFree, hs, hn]
  | enumerate _ hs hw => exact moved hw (State.stepsFree_nextNode hs)
  | nodeWord _ hs hw =>
    have ht : (s.takeNode s.acc).stepsFree = s.stepsFree := by simp [State.stepsFree]
    exact moved hw (ht ▸ State.stepsFree_nextNode (s := s.takeNode s.acc) (by simp [hs]))
  | publish _ hs hw | handoff _ hs hw | checked _ hs hw => exact moved hw (by simp [State.stepsFree, hs])

/-- From a coherent state the engine is in `IDLE` within the steps it has left: each one is answered, keeps the invariant and leaves
fewer. -/
theorem run_ends (n : Nat) (s : State) (hn : s.stepsLeft ≤ n) (h : s.Coherent) (hr : s.env.resetReq = false) :
    ∃ k t, k ≤ n ∧ Sys2Proof.core.run k s = .next t ∧ t.stage = .idle := by
  induction n generalizing s with
  | zero =>
    refine ⟨0, s, Nat.le_refl 0, rfl, ?_⟩
    by_contra hb
    exact absurd (State.stepsLeft_pos hb) (by omega)
  | succ n ih =>
    by_cases hs : s.stage = .idle
    · exact ⟨0, s, Nat.zero_le _, rfl, hs⟩
    · obtain ⟨u, hu⟩ := stepAnswersWhateverTheOracle s h (fun hi => absurd hi hs)
      have hm := step_moves s u hu
      obtain ⟨k, t, hk, hrun, ht⟩ := ih u (by have := hm.stepsLeft_lt h hr hs; omega) (hm.coherent h) (hm.resetReq hr)
      exact ⟨k + 1, t, Nat.succ_le_succ hk, (run_succ k s u hu).trans hrun, ht⟩

/-- Settles O58: no state has more than 4370 steps left. -/
theorem everyCommandEnds : Obligations.EveryCommandEnds :=
  fun s h hr _ => run_ends 4370 s s.stepsLeft_le h hr

end Sys2Proof.Machine

namespace Sys2Proof.Machine
/-!
PROOF. A whole `discover`: its acceptance, steps 1 to 7 (`run_enumeration`), and the two ways that step 8 ends in a run whose requests
all succeed.
-/

theorem decodeCommand_discover {w : BitVec 34} (tap : Tap) (h : w.extractLsb' 0 2 = 0b01#2) :
    decodeCommand w tap = .discover tap := if_pos h

/-- The step that accepts a `discover`. -/
theorem step_acceptDiscover {s : State} {c : Command} {cs : List Command} (hr : s.env.resetReq = false) (hs : s.stage = .idle)
    (hc : s.env.commands = c :: cs) (hop : c.word.extractLsb' 0 2 = 0b01#2) (h4 : 4 ≤ c.tap.irlen) :
    step s = .next ((s.withCommands cs).acceptDiscover c.tap) := by
  rw [step_idle s hr hs, takeCommand_cons hc, decodeCommand_discover _ hop]
  exact exec_discover_idle (s := s.withCommands cs) hs h4

/-- What steps 1 to 7 have left behind is ready for step 8. -/
theorem State.Enumerated.ready {s t : State} {h : BitVec 32} {ws : List (BitVec 32)} (he : s.Enumerated t h ws) (hr : s.Ready)
    {m : Memory} (hm : m.wf = true) (f : FarEnd) (rs : List Request) (as : List Answer) (xs : List Nat) :
    (t.after m f rs as xs).Ready := by
  rw [he.same]
  exact ⟨hr.noReset, nofun, hr.free, hr.empty, hm, hr.tap⟩

/-- The registers hold the fields of the hub's word `h`, and so the width of the routed word (spec 43_routing.md R232). -/
theorem State.Enumerated.fields {s t : State} {h : BitVec 32} {ws : List (BitVec 32)} (he : s.Enumerated t h ws) :
    t.nodeCount.toNat = nodeCountOf h ∧ t.mWidth.toNat = mWidthOf h ∧
      t.routedWidth = addressFieldWidth (nodeCountOf h) + mWidthOf h := by
  have hc : t.nodeCount.toNat = nodeCountOf h := by rw [he.same]; exact toNat_extractLsb'_eq h 19 8
  have hm : t.mWidth.toNat = mWidthOf h := by rw [he.same]; exact toNat_extractLsb'_low h 8
  exact ⟨hc, hm, by rw [State.routedWidth, State.addrWidth, hc, hm]⟩

/-- A `discover` taken from the channel, up to step 8: `28 + 17N` steps. -/
theorem run_discover_to_final {s : State} {c : Command} {cs : List Command} {as : List Answer} {xs : List Nat} {h : BitVec 32}
    {ws : List (BitVec 32)} (hcoh : s.Coherent) (hr : s.env.resetReq = false) (hs : s.stage = .idle) (hq : s.queue = [])
    (hc : s.env.commands = c :: cs) (hop : c.word.extractLsb' 0 2 = 0b01#2) (h4 : 4 ≤ c.tap.irlen)
    (hl : ws.length = nodeCountOf h) (ha : s.env.answers = List.replicate (12 + 8 * ws.length) .success ++ as)
    (hx : s.env.captures = streamOf (h :: ws) ++ xs) :
    ∃ t u m f, Sys2Proof.core.run (28 + 17 * ws.length) s = .next u ∧
      u = t.after m f (enumerationRequests c.tap ws.length) as xs ∧ u.Ready ∧
      ((s.withCommands cs).acceptDiscover c.tap).Enumerated t h ws := by
  have hready : ((s.withCommands cs).acceptDiscover c.tap).Ready := ⟨hr, nofun, rfl, hq, hcoh.memory, h4⟩
  obtain ⟨t, m, f, hrun, hm, he⟩ := run_enumeration _ h ws xs as hready rfl rfl hl ha hx
  refine ⟨t, _, m, f, ?_, rfl, he.ready hready hm _ _ _ _, he⟩
  rw [show 28 + 17 * ws.length = 1 + (27 + 17 * ws.length) by omega,
    run_add _ _ _ _ (run_one _ _ (step_acceptDiscover hr hs hc hop h4)), hrun]
  rfl

/-- Settles O57: no match has been recorded when step 8 begins, which then raises `no_vjtag_found`. -/
theorem discoverWithoutVjtagNodeFindsNothing : Obligations.DiscoverWithoutVjtagNodeFindsNothing := by
  intro s c cs as xs h ws hcoh hr hs hq hc hop h4 hl hno ha hx
  obtain ⟨t, u, m, f, hrun, hu, hready, he⟩ := run_discover_to_final hcoh hr hs hq hc hop h4 hl ha hx
  have hnone : ws.findIdx? (fun w => nodeIdOf w == 0x08) = none :=
    List.findIdx?_eq_none_iff.2 fun w hw => beq_eq_false_iff_ne.2 (hno w hw)
  have hst : u.stage = .s8Final := by rw [hu, he.same]; rfl
  have hf : u.found = false := by rw [hu]; exact he.none hnone
  have hstep : step u = .next (u.raise .noVjtagFound) := (step_issue u hready).trans (issue_notFound hst hf)
  rw [show 29 + 17 * ws.length = (28 + 17 * ws.length) + 1 by omega, run_add _ _ _ _ hrun, run_one _ _ hstep, hu, he.same]
  exact ⟨_, rfl, rfl, rfl, rfl, rfl, rfl, rfl, rfl, rfl, rfl, rfl, rfl, rfl⟩

/-- Steps 8 and 9 with a match in range, every request served: eight steps, three requests, the node routed to with
`DTMCS_TAG`. -/
theorem run_publish_and_route {u : State} {as : List Answer} (hready : u.Ready) (hst : u.stage = .s8Final)
    (hf : u.found = true) (hw : u.routedWidth ≤ 64) (ha : u.env.answers = List.replicate 3 .success ++ as) :
    ∃ word m f, Sys2Proof.core.run 8 u = .next (u.publish.handoff.after m f (routedRequests u.cmdTap u.routedWidth word) as
        u.env.captures).succeed ∧
      word = ((u.vjtagAddr.toNat <<< u.mWidth.toNat) ||| Config.dtmcsTag.toNat) % 2 ^ u.routedWidth ∧
      f.ir = some Config.user0 ∧ f.vir = some ⟨u.routedWidth, word⟩ := by
  have hpublish : step u = .next u.publish := (step_issue u hready).trans (issue_publish hst hf hw)
  have hready' : u.publish.Ready := { hready with busy := nofun }
  have hhandoff : step u.publish = .next u.publish.handoff := (step_issue _ hready').trans (issue_s9Handoff rfl)
  obtain ⟨m, f, hrouted, hir, hvir⟩ := run_routedScan u.publish.handoff as { hready' with busy := nofun } rfl rfl hw ha
  exact ⟨_, m, f, (run_succ 7 u _ hpublish).trans ((run_succ 6 _ _ hhandoff).trans hrouted), rfl, hir, hvir⟩

/-- Settles O56: the first match has been recorded when step 8 begins, which publishes it; step 9 routes to it. -/
theorem discoverFindsTheFirstVjtagNode : Obligations.DiscoverFindsTheFirstVjtagNode := by
  intro s c cs as xs h ws a n hcoh hr hs hq hc hop h4 hl hfirst hn hw ha hx
  have ha' : s.env.answers = List.replicate (12 + 8 * ws.length) .success ++ (List.replicate 3 .success ++ as) := by
    rw [ha, ← List.append_assoc, List.replicate_append_replicate]; congr 2; omega
  obtain ⟨t, u, m, f, hrun, hu, hready, he⟩ := run_discover_to_final hcoh hr hs hq hc hop h4 hl ha' hx
  obtain ⟨hcount, hm, hwidth⟩ : u.nodeCount.toNat = nodeCountOf h ∧ u.mWidth.toNat = mWidthOf h ∧
      u.routedWidth = n + mWidthOf h := by rw [hu, hn]; exact he.fields
  obtain ⟨hfound, haddr⟩ : u.found = true ∧ u.vjtagAddr.toNat = a + 1 := by
    rw [hu, Nat.add_comm]; exact he.first a hfirst
  have hst : u.stage = .s8Final := by rw [hu, he.same]; rfl
  have htap : u.cmdTap = c.tap := by rw [hu, he.same]; rfl
  have htrace : u.out.trace = s.out.trace ++ servedTrace (enumerationRequests c.tap ws.length) := by rw [hu, he.same]; rfl
  have hresponses : u.out.responses = s.out.responses := by rw [hu, he.same]; rfl
  have hcommands : u.env.commands = cs := by rw [hu, he.same]; rfl
  obtain ⟨word, m', f', hrest, hword, hir, hvir⟩ :=
    run_publish_and_route hready hst hfound (by rwa [hwidth]) (by rw [hu]; rfl)
  rw [htap, hwidth] at hrest
  rw [hwidth, haddr, hm] at hword
  rw [hwidth] at hvir
  rw [show 36 + 17 * ws.length = (28 + 17 * ws.length) + 8 by omega, run_add _ _ _ _ hrun, hrest]
  refine ⟨_, word, rfl, hword, rfl, rfl, congrArg (· ++ _) hresponses, rfl, hcount, hm, haddr, ?trace, hready.empty, rfl,
    by rw [hu]; rfl, hcommands, hir, hvir⟩
  case trace =>
    rw [servedTrace_append, ← List.append_assoc, ← htrace]
    rfl

end Sys2Proof.Machine

namespace Sys2Proof.Machine
/-!
PROOF. `route_to_node`: its acceptance, the check that fails fast, and the whole routed scan after a discovery. On the Discovery
Result the one fact is `State.raise_of_route`: a failure of a `route_to_node` withdraws nothing (spec 43_routing.md R236).
-/

/-! ### Acceptance -/

/-- An idle engine accepts a `route_to_node` of a legal handle. -/
theorem exec_route_idle {s : State} {v : BitVec 32} {tap : Tap} (hs : s.stage = .idle) (h4 : 4 ≤ tap.irlen) :
    exec (.route v tap) s = .next (s.acceptRoute v tap) :=
  (if_neg (by simp [State.busy, hs])).trans (if_neg (Nat.not_lt.2 h4))

theorem decodeCommand_route {w : BitVec 34} (tap : Tap) (h : w.extractLsb' 0 2 = 0b10#2) :
    decodeCommand w tap = .route (w.extractLsb' 2 32) tap :=
  (if_neg (by simp [h])).trans (if_pos h)

/-- The step that accepts a `route_to_node`. -/
theorem step_acceptRoute {s : State} {c : Command} {cs : List Command} (hr : s.env.resetReq = false) (hs : s.stage = .idle)
    (hc : s.env.commands = c :: cs) (hop : c.word.extractLsb' 0 2 = 0b10#2) (h4 : 4 ≤ c.tap.irlen) :
    step s = .next ((s.withCommands cs).acceptRoute (c.word.extractLsb' 2 32) c.tap) := by
  rw [step_idle s hr hs, takeCommand_cons hc, decodeCommand_route _ hop]
  exact exec_route_idle (s := s.withCommands cs) hs h4

/-- `IRBUF` at the size of a handle has that size, and in each of its bits what it held there. -/
theorem Memory.forHandle_irbuf_spec (m : Memory) (tap : Tap) :
    (m.forHandle tap).irbuf.length = (tap.irlen + 7) / 8 ∧
      ∀ j, j < 8 * (m.forHandle tap).irbuf.length → Buffer.bit (m.forHandle tap).irbuf j = Buffer.bit m.irbuf j :=
  ⟨m.forHandle_irbuf_length tap, fun _ hj => m.bit_forHandle (by rwa [m.forHandle_irbuf_length] at hj)⟩

/-- Settles O32: the next state is `State.acceptRoute`, whose `IRBUF` is the old one at the size of the handle. -/
theorem routeIsAcceptedWhenIdle : Obligations.RouteIsAcceptedWhenIdle :=
  fun s _ tap hs h4 => ⟨(s.mem.forHandle tap).irbuf, s.mem.forHandle_irbuf_spec tap, exec_route_idle hs h4⟩

/-! ### The Discovery Result -/

/-- A failure of a `route_to_node` keeps `VALID`, in the routed scan too. -/
theorem State.raise_of_route {s : State} (h : s.cmdKind = .route) (c : Condition) :
    s.raise c =
      { s with
        errStage := s.stage
        errToken := c.token
        result := c.result
        responded := true
        stage := .idle
        awaiting := false
        out := s.out.respond c.result } := by
  have hw : s.withdraws = false := by simp [State.withdraws, h]
  simp [State.raise, hw]

@[simp] theorem State.afterRequest_nodeCount (s : State) : s.afterRequest.nodeCount = s.nodeCount := by
  unfold State.afterRequest; split <;> rfl

@[simp] theorem State.afterRequest_mWidth (s : State) : s.afterRequest.mWidth = s.mWidth := by
  unfold State.afterRequest; split <;> rfl

@[simp] theorem State.afterRequest_vjtagAddr (s : State) : s.afterRequest.vjtagAddr = s.vjtagAddr := by
  unfold State.afterRequest; split <;> rfl

@[simp] theorem State.afterRequest_found (s : State) : s.afterRequest.found = s.found := by
  unfold State.afterRequest; split <;> rfl

/-- Settles O46, by cases on the move: the moves that write a field are not those of a `route_to_node`, and its failures withdraw
nothing. -/
theorem routeKeepsTheDiscoveryResult : Obligations.RouteKeepsTheDiscoveryResult := by
  intro s t hstep hnr h
  cases step_moves s t hstep with
  | reset hr => simp [hr] at hnr
  | discover c cs _ hs hc hop => simp [hs, hc, hop] at h
  | hubWord _ hs | enumerate _ hs | nodeWord _ hs | notFound _ hs | outOfRange _ hs | publish _ hs => simp [hs] at h
  | completed => simp
  | failed tok _ hs =>
    have hk : s.cmdKind = .route := (h.resolve_left fun hi => hs hi.1).1
    rw [State.raise_of_route (s := s.executeFailed) hk]
    exact ⟨rfl, rfl, rfl, rfl, rfl⟩
  | notDiscovered _ hs =>
    have hk : s.cmdKind = .route := (h.resolve_left fun hi => by simp [hs] at hi).1
    rw [State.raise_of_route hk]
    exact ⟨rfl, rfl, rfl, rfl, rfl⟩
  | wait | route | reserved | resetTap | select | zeroFill | nibble | derive | handoff | checked | routed =>
    exact ⟨rfl, rfl, rfl, rfl, rfl⟩

/-! ### The whole command -/

/-- Settles O54: the command is accepted, and the check raises `not_discovered`. -/
theorem routeBeforeDiscoveryFailsFast : Obligations.RouteBeforeDiscoveryFailsFast := by
  intro s c cs hr hs hv hc hop h4
  obtain ⟨u, hu⟩ : ∃ u, u = (s.withCommands cs).acceptRoute (c.word.extractLsb' 2 32) c.tap := ⟨_, rfl⟩
  have haccept : step s = .next u := hu ▸ step_acceptRoute hr hs hc hop h4
  have hst : u.stage = .r0Check := by rw [hu]; rfl
  have hcheck : step u = .next (u.raise .notDiscovered) :=
    (step_free u (by rw [hu]; exact hr) (by simp [hst]) (by rw [hu]; rfl)).trans
      (issue_notDiscovered hst (by rw [hu]; exact hv))
  refine ⟨(s.mem.forHandle c.tap).irbuf, s.mem.forHandle_irbuf_spec c.tap, ?_⟩
  rw [run_succ 1 s u haccept, run_one u _ hcheck, State.raise_of_route (by rw [hu]; rfl), hu]
  simp [State.withCommands, State.acceptRoute, Memory.forHandle, Condition.result, Condition.token, Out.respond, hs]

/-- Settles O55: the command is accepted, the check passes, and `run_routedScan` serves the three requests. -/
theorem routeAfterDiscoverySelectsTheNode : Obligations.RouteAfterDiscoverySelectsTheNode := by
  intro s c cs as hcoh hr hs hv hq hc hop h4 ha
  obtain ⟨-, -, -, h64⟩ := hcoh.published hv
  obtain ⟨u, hu⟩ : ∃ u, u = (s.withCommands cs).acceptRoute (c.word.extractLsb' 2 32) c.tap := ⟨_, rfl⟩
  have hready : u.Ready := by rw [hu]; exact ⟨hr, nofun, rfl, hq, hcoh.memory, h4⟩
  have haccept : step s = .next u := hu ▸ step_acceptRoute hr hs hc hop h4
  have hcheck : step u = .next (u.goto .raSelVir) :=
    (step_issue u hready).trans (issue_checked (by rw [hu]; rfl) (by rw [hu]; exact hv))
  obtain ⟨m, f, hscan, hir, hvir⟩ := run_routedScan (u.goto .raSelVir) as { hready with busy := nofun } rfl
    (by rw [hu]; exact hv) (by rw [hu]; exact h64) (by rw [hu]; exact ha)
  subst hu
  exact ⟨_, _, (run_succ 7 s _ haccept).trans ((run_succ 6 _ _ hcheck).trans hscan), rfl, rfl, rfl, rfl, rfl,
    hv, rfl, rfl, rfl, rfl, hq, rfl, rfl, hir, hvir⟩

end Sys2Proof.Machine

namespace Sys2Proof.Machine
/-!
PROOF. The three failure responses: each of them takes its own condition, with `State.raise` (spec 60_exceptions.md R256).
-/

/-- Settles O30: the response raises the condition that has its code and its token, and `State.withdraws_eq` says when `VALID` is
withdrawn. -/
theorem failuresEndTheCommandInOneStep : Obligations.FailuresEndTheCommandInOneStep := by
  intro s i c tok h
  obtain ⟨k, rfl, rfl, hraise⟩ : ∃ k : Condition, k.result = c ∧ k.token = tok ∧ exec i s = .next (s.raise k) := by
    obtain ⟨rfl, rfl, rfl⟩ | ⟨rfl, rfl, rfl⟩ | ⟨t, rfl, rfl, rfl⟩ := h
    · exact ⟨.noVjtagFound, rfl, rfl, rfl⟩
    · exact ⟨.notDiscovered, rfl, rfl, rfl⟩
    · exact ⟨.transportError t, rfl, rfl, rfl⟩
  rw [hraise, ← State.withdraws_eq]
  rfl

end Sys2Proof.Machine

namespace Sys2Proof.Machine
/-!
PROOF. The engine reset: when it acts, and what it leaves of the two things that are not the engine's own, the scan queue and the far
end (spec 70_reset_and_hazards.md R291, R293).
-/

/-- An asked-for reset goes before every transaction, whatever the stage. -/
theorem step_of_resetReq {s : State} (hr : s.env.resetReq = true) : step s = .next s.engineReset := if_pos hr

theorem State.queueAfterReset_cases (s : State) :
    s.queueAfterReset = s.queue ∨ (s.stage ≠ .idle ∧ s.queueAfterReset = []) := by
  unfold State.queueAfterReset
  split
  next hempty =>
    rw [Bool.and_eq_true, bne_iff_ne] at hempty
    exact .inr ⟨hempty.1, rfl⟩
  next => exact .inl rfl

theorem State.engineReset_far_of_idle {s : State} (hs : s.stage = .idle) : s.engineReset.far = s.far :=
  if_neg (by simp [hs])

theorem State.engineReset_far_of_busy {s : State} (hs : s.stage ≠ .idle) : s.engineReset.far = .unknown :=
  if_pos (bne_iff_ne.mpr hs)

/-- Settles O42: the step is `State.engineReset`, which puts `State.reset` into every register and keeps the channels; the queue and
the far end are its only parts that the stage decides. -/
theorem engineResetEndsTheCommandSilently : Obligations.EngineResetEndsTheCommandSilently := fun s hr =>
  ⟨s.engineReset, step_of_resetReq hr, rfl, rfl, rfl, s.queueAfterReset_cases, State.engineReset_far_of_idle,
    State.engineReset_far_of_busy, rfl⟩

end Sys2Proof.Machine
